-- ==== Sys2Proof/Word.lean ====
section
/-!
DEFINITION. The words of the machine. Registers, timers and memory cells are bytes; PC, I, return addresses and instruction
words are 16 bits (00_scope.md R7); a register index or key index has 4 bits, an address field 12 (30_encoding.md R71).
-/
namespace Sys2Proof

/-- 8 bits: a general register, a timer, a memory cell (R7). -/
abbrev Byte := BitVec 8

/-- 16 bits: PC, I, a return address, an instruction word (R7). -/
abbrev Word := BitVec 16

/-- 4 bits: a field of an instruction word, or a key index (R71). -/
abbrev Nibble := BitVec 4

/-- A register index, 0x0..0xF (10_state.md R21): no index names a register outside the file. -/
abbrev RegIx := BitVec 4

/-- The 12-bit absolute address field nnn (R71). -/
abbrev Addr := BitVec 12

/-- 16 one-bit key flags, key k at bit k (10_state.md R31). -/
abbrev KeyMap := BitVec 16

/-- The index of VF, which doubles as the flag (10_state.md R22). -/
abbrev vf : RegIx := 0xF#4

end Sys2Proof
end

