-- ==== Sys2Proof/Config.lean ====
section
/-!
DEFINITION. What is fixed for one machine (the parameters of 00_scope.md R8), what the input ports carry in one frame
(10_state.md R38), and the FREE VALUES: what the input ports carry in frames whose inputs nothing fixes. The values of the
default configuration stand in Machine/Defaults.lean.
-/
namespace Sys2Proof

/-- FETCH_WINDOW (R8, 20_memory.md R57): fetch inside the loaded image only, or anywhere in memory. -/
inductive FetchWindow where
  | image
  | memory
  deriving DecidableEq, Repr

/-- VF_ORDER (R8, 42_register_ops.md R141): which value VF keeps when it is the destination of a flag-setting operation. -/
inductive VfOrder where
  | flagLast
  | resultLast
  deriving DecidableEq, Repr

/-- SYS_POLICY (R8, 30_encoding.md R75): a SYS word is a DecodeError, or decodes and does nothing. -/
inductive SysPolicy where
  | fault
  | nop
  deriving DecidableEq, Repr

/-- The parameters of 00_scope.md R8, one field each. -/
structure Config where
  /-- STACK_LIMIT: the greatest call depth; `none` is unbounded. -/
  stackLimit : Option Nat
  fetchWindow : FetchWindow
  vfOrder : VfOrder
  sysPolicy : SysPolicy
  /-- FONT: the 80 bytes at 0x000..0x04F after reset. -/
  font : Vector Byte 80
  /-- INIT_FILL: every byte of memory that neither the font nor the image fills at reset. -/
  initFill : Byte
  /-- TICK_HZ: read by no rule (70_reset_and_hazards.md R276). -/
  tickHz : Nat
  deriving DecidableEq, Repr

/-- The input collaborator's answer to the poll of one frame (10_state.md R38). -/
inductive Poll where
  | stop
  | keys (down : KeyMap)
  deriving DecidableEq, Repr, Inhabited

/-- Everything the input ports carry in one frame: the three arguments of `frame(poll, rnd, kchoice)` (40_frame_cycle.md
R100, 10_state.md R38). -/
structure FrameInput where
  poll : Poll
  /-- The 8-bit draw RND consumes (decision D14). -/
  rnd : Byte
  /-- The choice among several keys released in one frame (decision D13). -/
  kchoice : Nibble
  deriving DecidableEq, Repr, Inhabited

/-- FREE VALUE (DESIGN CHOICE, log 7): the poll's answer in frame n, where nothing fixes it. The host may deliver any key
map, or Stop, in any frame (10_state.md R42). -/
opaque Config.freePoll : Nat → Poll

/-- FREE VALUE (log 8): the draw `rnd` of frame n, under no law (decision D14). -/
opaque Config.freeRnd : Nat → Byte

/-- FREE VALUE (log 9): the draw `kchoice` of frame n (decision D13). -/
opaque Config.freeKchoice : Nat → Nibble

/-- The inputs of a frame that nothing fixes: all three are free. -/
def Config.freeInput (n : Nat) : FrameInput :=
  { poll := Config.freePoll n, rnd := Config.freeRnd n, kchoice := Config.freeKchoice n }

end Sys2Proof
end

