-- ==== Sys2Proof/Syntax.lean ====
section
/-!
DEFINITION. The instructions: one constructor per row of spec/opcode_table.json (30_encoding.md R74), its arguments the
fields the row names, in the order they stand in the word (R70).
-/
namespace Sys2Proof

/-- The 35 instructions of 30_encoding.md R74. -/
inductive Instr where
  /-- 00E0, 44_display.md R192. -/
  | cls
  /-- 00EE, 41_control_flow.md R123. -/
  | ret
  /-- 0NNN but 00E0 and 00EE, 41_control_flow.md R124. -/
  | sys (nnn : Addr)
  /-- 1NNN, R121. -/
  | jp (nnn : Addr)
  /-- 2NNN, R122. -/
  | call (nnn : Addr)
  /-- 3XNN, R126. -/
  | seImm (x : RegIx) (nn : Byte)
  /-- 4XNN, R127. -/
  | sneImm (x : RegIx) (nn : Byte)
  /-- 5XY0, R128. -/
  | seReg (x y : RegIx)
  /-- 6XNN, 42_register_ops.md R142. -/
  | ldImm (x : RegIx) (nn : Byte)
  /-- 7XNN, R143. -/
  | addImm (x : RegIx) (nn : Byte)
  /-- 8XY0, R144. -/
  | ldReg (x y : RegIx)
  /-- 8XY1, R145. -/
  | orReg (x y : RegIx)
  /-- 8XY2, R146. -/
  | andReg (x y : RegIx)
  /-- 8XY3, R147. -/
  | xorReg (x y : RegIx)
  /-- 8XY4, R148. -/
  | addReg (x y : RegIx)
  /-- 8XY5, R149. -/
  | sub (x y : RegIx)
  /-- 8XY6, R150; y is decoded and ignored. -/
  | shr (x y : RegIx)
  /-- 8XY7, R151. -/
  | subn (x y : RegIx)
  /-- 8XYE, R152; y is decoded and ignored. -/
  | shl (x y : RegIx)
  /-- 9XY0, 41_control_flow.md R129. -/
  | sneReg (x y : RegIx)
  /-- ANNN, 43_memory_ops.md R171. -/
  | ldI (nnn : Addr)
  /-- BNNN, 41_control_flow.md R125. -/
  | jpV0 (nnn : Addr)
  /-- CXNN, 42_register_ops.md R153. -/
  | rnd (x : RegIx) (nn : Byte)
  /-- DXYN, 44_display.md R191. -/
  | drw (x y : RegIx) (n : Nibble)
  /-- EX9E, 45_input.md R210. -/
  | skp (x : RegIx)
  /-- EXA1, R211. -/
  | sknp (x : RegIx)
  /-- FX07, 46_timers.md R220. -/
  | ldVxDt (x : RegIx)
  /-- FX0A, 45_input.md R212. -/
  | ldVxK (x : RegIx)
  /-- FX15, 46_timers.md R221. -/
  | ldDtVx (x : RegIx)
  /-- FX18, R222. -/
  | ldStVx (x : RegIx)
  /-- FX1E, 43_memory_ops.md R172. -/
  | addI (x : RegIx)
  /-- FX29, R173. -/
  | ldF (x : RegIx)
  /-- FX33, R175. -/
  | ldB (x : RegIx)
  /-- FX55, R176. -/
  | ldMemVx (x : RegIx)
  /-- FX65, R177. -/
  | ldVxMem (x : RegIx)
  deriving DecidableEq, Repr

end Sys2Proof
end

