-- ==== Sys2Proof/WellFormed.lean ====
section
/-!
DEFINITION. Which terms of Instr stand for an instruction word. Every field has exactly its width in the word, so a field is
never out of range; the one check left is that SYS is no other name for CLS or RET (30_encoding.md R74 row 3).
-/
namespace Sys2Proof

/-- An instruction that some word encodes: every term but SYS 0E0 and SYS 0EE, whose words are CLS and RET (R74, R75). -/
def Instr.wellFormed : Instr → Bool
  | .sys nnn => nnn != 0x0E0#12 && nnn != 0x0EE#12
  | _ => true

end Sys2Proof
end

