-- ==== Sys2Proof/Decode.lean ====
section
/-!
DEFINITION. The decoder of 30_encoding.md R75, total on every word and on any bytes, and after it the encoder, written from
the patterns of R74. PRESUMED (log 6): the patterns are the standard CHIP-8 ones, which the spec marks as general knowledge.
-/
namespace Sys2Proof

/-! ### The fields of a word (R70) -/

/-- c = w[15:12], the class. -/
def fieldC (w : Word) : Nibble := w.extractLsb' 12 4

/-- x = w[11:8]. -/
def fieldX (w : Word) : RegIx := w.extractLsb' 8 4

/-- y = w[7:4]. -/
def fieldY (w : Word) : RegIx := w.extractLsb' 4 4

/-- n = w[3:0]. -/
def fieldN (w : Word) : Nibble := w.extractLsb' 0 4

/-- nn = w[7:0]. -/
def fieldNN (w : Word) : Byte := w.extractLsb' 0 8

/-- nnn = w[11:0]. -/
def fieldNNN (w : Word) : Addr := w.extractLsb' 0 12

/-! ### Decoding -/

/-- What decoding gives: an instruction, the DecodeError of a word no pattern matches (R73, 60_exceptions.md R232), or,
for bytes that are no whole word, a refusal of its own name. -/
inductive Decoded where
  | instr (i : Instr)
  | decodeError (w : Word)
  | truncated
  deriving DecidableEq, Repr

/-- Class 0x0, selected by the whole word; SYS by SYS_POLICY (R75, R124). -/
def decode0 (p : SysPolicy) (w : Word) : Decoded :=
  if w = 0x00E0#16 then .instr .cls
  else if w = 0x00EE#16 then .instr .ret
  else match p with
    | .nop => .instr (.sys (fieldNNN w))
    | .fault => .decodeError w

/-- Class 0x8, selected by n (R75). -/
def decode8 (w : Word) : Decoded :=
  match fieldN w with
  | 0x0#4 => .instr (.ldReg (fieldX w) (fieldY w))
  | 0x1#4 => .instr (.orReg (fieldX w) (fieldY w))
  | 0x2#4 => .instr (.andReg (fieldX w) (fieldY w))
  | 0x3#4 => .instr (.xorReg (fieldX w) (fieldY w))
  | 0x4#4 => .instr (.addReg (fieldX w) (fieldY w))
  | 0x5#4 => .instr (.sub (fieldX w) (fieldY w))
  | 0x6#4 => .instr (.shr (fieldX w) (fieldY w))
  | 0x7#4 => .instr (.subn (fieldX w) (fieldY w))
  | 0xE#4 => .instr (.shl (fieldX w) (fieldY w))
  | _ => .decodeError w

/-- Class 0xE, selected by nn (R75). -/
def decodeE (w : Word) : Decoded :=
  match fieldNN w with
  | 0x9E#8 => .instr (.skp (fieldX w))
  | 0xA1#8 => .instr (.sknp (fieldX w))
  | _ => .decodeError w

/-- Class 0xF, selected by nn (R75). -/
def decodeF (w : Word) : Decoded :=
  match fieldNN w with
  | 0x07#8 => .instr (.ldVxDt (fieldX w))
  | 0x0A#8 => .instr (.ldVxK (fieldX w))
  | 0x15#8 => .instr (.ldDtVx (fieldX w))
  | 0x18#8 => .instr (.ldStVx (fieldX w))
  | 0x1E#8 => .instr (.addI (fieldX w))
  | 0x29#8 => .instr (.ldF (fieldX w))
  | 0x33#8 => .instr (.ldB (fieldX w))
  | 0x55#8 => .instr (.ldMemVx (fieldX w))
  | 0x65#8 => .instr (.ldVxMem (fieldX w))
  | _ => .decodeError w

/-- The decoder of R75: dispatch on the class nibble, then on the class's selector. -/
def decodeWord (p : SysPolicy) (w : Word) : Decoded :=
  match fieldC w with
  | 0x0#4 => decode0 p w
  | 0x1#4 => .instr (.jp (fieldNNN w))
  | 0x2#4 => .instr (.call (fieldNNN w))
  | 0x3#4 => .instr (.seImm (fieldX w) (fieldNN w))
  | 0x4#4 => .instr (.sneImm (fieldX w) (fieldNN w))
  | 0x5#4 => if fieldN w = 0x0#4 then .instr (.seReg (fieldX w) (fieldY w)) else .decodeError w
  | 0x6#4 => .instr (.ldImm (fieldX w) (fieldNN w))
  | 0x7#4 => .instr (.addImm (fieldX w) (fieldNN w))
  | 0x8#4 => decode8 w
  | 0x9#4 => if fieldN w = 0x0#4 then .instr (.sneReg (fieldX w) (fieldY w)) else .decodeError w
  | 0xA#4 => .instr (.ldI (fieldNNN w))
  | 0xB#4 => .instr (.jpV0 (fieldNNN w))
  | 0xC#4 => .instr (.rnd (fieldX w) (fieldNN w))
  | 0xD#4 => .instr (.drw (fieldX w) (fieldY w) (fieldN w))
  | 0xE#4 => decodeE w
  | _ => decodeF w

/-- A word of two bytes, the first at the lower address: big-endian (20_memory.md R51). -/
def wordOfBytes (hi lo : Byte) : Word := hi ++ lo

/-- The two bytes of a word in the order they stand in memory (R51). -/
def bytesOfWord (w : Word) : List Byte := [w.extractLsb' 8 8, w.extractLsb' 0 8]

/-- Decoding the first word of a list of bytes; every instruction is two bytes (R70, R79). -/
def decodeBytes (p : SysPolicy) : List Byte → Decoded × List Byte
  | hi :: lo :: rest => (decodeWord p (wordOfBytes hi lo), rest)
  | short => (.truncated, short)

/-- The instruction the decoder reads from the bytes of a word of `nbits` bits. DESIGN CHOICE (log 11): read under
SYS_POLICY = nop, the only setting under which the table's SYS row is legal. -/
def decodeTableWord (nbits w : Nat) : Option Instr :=
  match decodeBytes .nop (bytesOfWord (BitVec.ofNat 16 (w % 2 ^ nbits))) with
  | (.instr i, _) => some i
  | _ => none

/-! ### Encoding (R74) -/

/-- Class, nnn (format `address`). -/
def addressWord (c : Nibble) (nnn : Addr) : Word := c ++ nnn

/-- Class, x, nn (formats `byte` and `selector_byte`). -/
def byteWord (c : Nibble) (x : RegIx) (nn : Byte) : Word := c ++ (x ++ nn)

/-- Class, x, y, n (format `nibble`). -/
def nibbleWord (c : Nibble) (x y : RegIx) (n : Nibble) : Word := c ++ (x ++ (y ++ n))

/-- The word of a well-formed instruction, from the patterns of R74. -/
def encode : Instr → Word
  | .cls => 0x00E0#16
  | .ret => 0x00EE#16
  | .sys nnn => addressWord 0x0#4 nnn
  | .jp nnn => addressWord 0x1#4 nnn
  | .call nnn => addressWord 0x2#4 nnn
  | .seImm x nn => byteWord 0x3#4 x nn
  | .sneImm x nn => byteWord 0x4#4 x nn
  | .seReg x y => nibbleWord 0x5#4 x y 0x0#4
  | .ldImm x nn => byteWord 0x6#4 x nn
  | .addImm x nn => byteWord 0x7#4 x nn
  | .ldReg x y => nibbleWord 0x8#4 x y 0x0#4
  | .orReg x y => nibbleWord 0x8#4 x y 0x1#4
  | .andReg x y => nibbleWord 0x8#4 x y 0x2#4
  | .xorReg x y => nibbleWord 0x8#4 x y 0x3#4
  | .addReg x y => nibbleWord 0x8#4 x y 0x4#4
  | .sub x y => nibbleWord 0x8#4 x y 0x5#4
  | .shr x y => nibbleWord 0x8#4 x y 0x6#4
  | .subn x y => nibbleWord 0x8#4 x y 0x7#4
  | .shl x y => nibbleWord 0x8#4 x y 0xE#4
  | .sneReg x y => nibbleWord 0x9#4 x y 0x0#4
  | .ldI nnn => addressWord 0xA#4 nnn
  | .jpV0 nnn => addressWord 0xB#4 nnn
  | .rnd x nn => byteWord 0xC#4 x nn
  | .drw x y n => nibbleWord 0xD#4 x y n
  | .skp x => byteWord 0xE#4 x 0x9E#8
  | .sknp x => byteWord 0xE#4 x 0xA1#8
  | .ldVxDt x => byteWord 0xF#4 x 0x07#8
  | .ldVxK x => byteWord 0xF#4 x 0x0A#8
  | .ldDtVx x => byteWord 0xF#4 x 0x15#8
  | .ldStVx x => byteWord 0xF#4 x 0x18#8
  | .addI x => byteWord 0xF#4 x 0x1E#8
  | .ldF x => byteWord 0xF#4 x 0x29#8
  | .ldB x => byteWord 0xF#4 x 0x33#8
  | .ldMemVx x => byteWord 0xF#4 x 0x55#8
  | .ldVxMem x => byteWord 0xF#4 x 0x65#8

end Sys2Proof
end

