-- ==== Sys2Proof/Machine/Defaults.lean ====
section
/-!
DEFINITION. The default values of the parameters (00_scope.md R8) and the FONT table of 10_state.md R27.
-/
namespace Sys2Proof.Machine

/-- The 80 font bytes, five per hexadecimal digit (10_state.md R27). PRESUMED (log 5): the spec takes the values from general
knowledge (decision D17); another font is another value of `Config.font`. -/
def standardFont : Vector Byte 80 :=
  #v[0xF0#8, 0x90#8, 0x90#8, 0x90#8, 0xF0#8,   -- 0 at 0x000
     0x20#8, 0x60#8, 0x20#8, 0x20#8, 0x70#8,   -- 1 at 0x005
     0xF0#8, 0x10#8, 0xF0#8, 0x80#8, 0xF0#8,   -- 2 at 0x00A
     0xF0#8, 0x10#8, 0xF0#8, 0x10#8, 0xF0#8,   -- 3 at 0x00F
     0x90#8, 0x90#8, 0xF0#8, 0x10#8, 0x10#8,   -- 4 at 0x014
     0xF0#8, 0x80#8, 0xF0#8, 0x10#8, 0xF0#8,   -- 5 at 0x019
     0xF0#8, 0x80#8, 0xF0#8, 0x90#8, 0xF0#8,   -- 6 at 0x01E
     0xF0#8, 0x10#8, 0x20#8, 0x40#8, 0x40#8,   -- 7 at 0x023
     0xF0#8, 0x90#8, 0xF0#8, 0x90#8, 0xF0#8,   -- 8 at 0x028
     0xF0#8, 0x90#8, 0xF0#8, 0x10#8, 0xF0#8,   -- 9 at 0x02D
     0xF0#8, 0x90#8, 0xF0#8, 0x90#8, 0x90#8,   -- A at 0x032
     0xE0#8, 0x90#8, 0xE0#8, 0x90#8, 0xE0#8,   -- B at 0x037
     0xF0#8, 0x80#8, 0x80#8, 0x80#8, 0xF0#8,   -- C at 0x03C
     0xE0#8, 0x90#8, 0x90#8, 0x90#8, 0xE0#8,   -- D at 0x041
     0xF0#8, 0x80#8, 0xF0#8, 0x80#8, 0xF0#8,   -- E at 0x046
     0xF0#8, 0x80#8, 0xF0#8, 0x80#8, 0x80#8]   -- F at 0x04B

/-- The defaults of 00_scope.md R8 (decisions D2, D5, D7, D9, D17, D18, D22; log 2). -/
def defaultConfig : Config where
  stackLimit := some 16
  fetchWindow := .image
  vfOrder := .flagLast
  sysPolicy := .fault
  font := standardFont
  initFill := 0x00#8
  tickHz := 60

end Sys2Proof.Machine
end

