-- ==== Sys2Proof/Machine/State.lean ====
section
/-!
DEFINITION. The state of the core: the aggregate of 10_state.md R20, the launch data and the configuration (00_scope.md R8),
and the ports (R38, R39). Plain data throughout. State.reset is the machine right after reset with no image loaded (R37).
-/
namespace Sys2Proof.Machine

/-- The spec's fault kinds, each with the info it records (60_exceptions.md R231). -/
inductive FaultKind where
  /-- An illegal word was fetched (R232). -/
  | decodeError (w : Word)
  /-- A fetch outside the window or the space, or a data access beyond 0xFFF (R233): start address and byte count. -/
  | memoryFault (addr count : Nat)
  /-- RET with an empty stack, at instruction address a (R234). -/
  | stackUnderflow (a : Word)
  /-- CALL with a full stack, at instruction address a (R235). -/
  | stackOverflow (a : Word)
  /-- FX29, EX9E or EXA1 with V[x] >= 16 (R236): instruction address and offending value. -/
  | invalidOperand (a : Word) (value : Byte)
  deriving DecidableEq, Repr

/-- STATUS (10_state.md R33). -/
inductive RunStatus where
  | running
  | stopped
  | faulted (kind : FaultKind)
  deriving DecidableEq, Repr

/-- WAIT, the key-wait status (10_state.md R32): the target register and the captured key set. -/
inductive KeyWait where
  | idle
  | waiting (r : RegIx) (captured : KeyMap)
  deriving DecidableEq, Repr

/-- What the audio port is driven with after a tick (10_state.md R39, 60_exceptions.md R246). -/
inductive AudioEvent where
  | none
  | play
  | stop
  deriving DecidableEq, Repr

/-- FB[y][x], rows of columns: 32 rows of 64 one-bit pixels (10_state.md R28). -/
abbrev Framebuffer := Vector (Vector Bool 64) 32

/-- Memory as its bytes that differ from the reset contents, at strictly rising addresses (log 4). -/
abbrev Memory := List Host.Cell

/-- Why a step has no next state. The spec's own faults are no Outcome.fault: they are states, STATUS = Faulted (log 1). -/
inductive Fault where
  /-- Raised by `step` alone, in a state whose STATUS is Stopped: the core takes no further step (R33). Safe: exact. -/
  | stopped
  /-- Raised by `step` alone, in a state whose STATUS is Faulted: the core takes no further step (R33, 60_exceptions.md R230).
  Safe: exact. -/
  | faulted (kind : FaultKind)
  deriving DecidableEq, Repr

/-- Why an instruction has no meaning. -/
inductive Refusal where
  /-- Raised by an arm of `exec` whose instruction is not modelled; no arm of this model raises it. Safe: nothing can be
  proved of a state it does not give. -/
  | notModelled (mnemonic : String)
  deriving DecidableEq, Repr

/-- The state of the core. -/
structure State where
  /-- V0..VF (R21); VF is also the flag (R22). -/
  v : Vector Byte 16
  /-- PC (R23). In the model it is the address of the instruction until that instruction's own meaning advances it. -/
  pc : Word
  /-- I (R24). -/
  index : Word
  /-- STACK (R25), the latest return address first; SP is its length. -/
  stack : List Word
  /-- MEM (R26). -/
  mem : Memory
  /-- FB (R28). -/
  fb : Framebuffer
  /-- DIRTY (R29). -/
  dirty : Bool
  /-- DT (R30). -/
  dt : Byte
  /-- ST (R30). -/
  st : Byte
  /-- K (R31). -/
  keys : KeyMap
  /-- WAIT (R32). -/
  wait : KeyWait
  /-- STATUS (R33), which is also the status port (R39). -/
  status : RunStatus
  /-- image_len, the launch datum the fetch window reads (00_scope.md R8, 20_memory.md R57). -/
  imageLen : Nat
  /-- The parameters of 00_scope.md R8; no step changes them. -/
  config : Config
  /-- The MODEL's own field: the inputs of the coming frames as far as something fixes them, this frame's first (log 7). -/
  inputs : List FrameInput
  /-- The MODEL's own field: how many frames have been stepped, the index of the free inputs (log 7). -/
  frame : Nat
  /-- The render port of the last frame: driven with a copy of FB, or not driven (R39, log 10). -/
  renderOut : Option Framebuffer
  /-- The audio port of the last frame: driven with an event, or not driven (R39, log 10). -/
  audioOut : Option AudioEvent
  deriving DecidableEq, Repr

/-- The machine right after reset (R37, 70_reset_and_hazards.md R270), every parameter at its default and no image loaded:
PC at 0x200, FB all 0, memory FONT and INIT_FILL (nothing listed), and the values of decision D18 (log 3). An image comes in
through the load port, `State.load`. -/
def State.reset : State where
  v := Vector.replicate 16 0x00#8
  pc := 0x200#16
  index := 0x0000#16
  stack := []
  mem := []
  fb := Vector.replicate 32 (Vector.replicate 64 false)
  dirty := false
  dt := 0x00#8
  st := 0x00#8
  keys := 0#16
  wait := .idle
  status := .running
  imageLen := 0
  config := defaultConfig
  inputs := []
  frame := 0
  renderOut := none
  audioOut := none

end Sys2Proof.Machine
end

