-- ==== Sys2Proof/Machine/Ops.lean ====
section
/-!
DEFINITION. The named operations over registers, stack, memory and framebuffer; taking a fault; the inputs of a frame; the
load port. Every meaning is written over these.
-/
namespace Sys2Proof.Machine

/-- What a step or a meaning answers. -/
abbrev Result := Host.Outcome State Fault Refusal

/-! ### Registers -/

/-- V[x] (10_state.md R21). -/
def State.reg (s : State) (x : RegIx) : Byte := s.v[x.toNat]

/-- V[x] <- b (R21): no register is hardwired. -/
def State.setReg (s : State) (x : RegIx) (b : Byte) : State := { s with v := s.v.set x.toNat b }

/-- PC <- a (R23). -/
def State.setPc (s : State) (a : Word) : State := { s with pc := a }

/-- I <- a (R24), all 16 bits. -/
def State.setIndex (s : State) (a : Word) : State := { s with index := a }

/-- DT <- b (R30). -/
def State.setDt (s : State) (b : Byte) : State := { s with dt := b }

/-- ST <- b (R30). -/
def State.setSt (s : State) (b : Byte) : State := { s with st := b }

/-- WAIT <- w (R32). -/
def State.setWait (s : State) (w : KeyWait) : State := { s with wait := w }

/-- K <- k, replaced whole (R31, 40_frame_cycle.md R101). -/
def State.setKeys (s : State) (k : KeyMap) : State := { s with keys := k }

/-- STATUS <- r (R33). -/
def State.setStatus (s : State) (r : RunStatus) : State := { s with status := r }

/-- STACK <- l (R25). -/
def State.setStack (s : State) (l : List Word) : State := { s with stack := l }

/-- MEM <- m. -/
def State.setMem (s : State) (m : Memory) : State := { s with mem := m }

/-- FB <- fb and DIRTY <- 1: both writers of the framebuffer mark it dirty (R29, 44_display.md R191, R192). -/
def State.setScreen (s : State) (fb : Framebuffer) : State := { s with fb := fb, dirty := true }

/-- K[k] (R31). -/
def State.keyDown (s : State) (k : Nat) : Bool := s.keys.getLsbD k

/-- The advance past the instruction, PC <- (a + 2) mod 2^16 (40_frame_cycle.md R105). -/
def State.advance (s : State) : State := s.setPc (s.pc + 2#16)

/-- skip: PC <- (PC + 2) mod 2^16 once more, when the condition holds (41_control_flow.md R120). -/
def State.skipIf (s : State) (c : Bool) : State := if c then s.setPc (s.pc + 2#16) else s

/-! ### Stack (10_state.md R25) -/

/-- SP, the depth of the stack. -/
def State.sp (s : State) : Nat := s.stack.length

/-- The test of CALL: STACK_LIMIT != none and SP == STACK_LIMIT (41_control_flow.md R122). -/
def State.stackFull (s : State) : Bool :=
  match s.config.stackLimit with
  | none => false
  | some n => s.sp == n

/-- STACK[SP] <- a; SP <- SP + 1. -/
def State.push (s : State) (a : Word) : State := s.setStack (a :: s.stack)

/-! ### Taking a fault (60_exceptions.md R230) -/

/-- `raise Fault(kind, info)`, given the state before the fetch: nothing is committed, the PC advance included, and STATUS
becomes Faulted. The core takes no further step from there: there is no handler and no return (R230, R239). -/
def raise (k : FaultKind) (s : State) : Result := .next (s.setStatus (.faulted k))

/-! ### Memory (20_memory.md) -/

/-- What a byte that nothing has written reads as: the reset contents, FONT at 0x000..0x04F and INIT_FILL above (10_state.md
R37; log 4). -/
def resetByte (c : Config) (a : Nat) : Byte := if h : a < 80 then c.font[a] else c.initFill

/-- The listed byte at address a, if there is one. -/
def findCell : Memory → Nat → Option Byte
  | [], _ => none
  | (a', b) :: rest, a => if a' = a then some b else findCell rest a

/-- A cell put into a list before the first one of a greater address. -/
def insertCell (c : Host.Cell) : Memory → Memory
  | [] => [c]
  | c' :: rest => if c.1 < c'.1 then c :: c' :: rest else c' :: insertCell c rest

/-- A memory with byte b at address a and nowhere else, where `d` is what an unlisted a reads as: a byte equal to `d` leaves
no entry, so the list stays in canonical form. -/
def putCell (d : Byte) (m : Memory) (a : Nat) (b : Byte) : Memory :=
  if b = d then m.filter (fun c => c.1 != a) else insertCell (a, b) (m.filter (fun c => c.1 != a))

/-- The canonical form: strictly rising addresses inside the space, and no entry equal to what it would read as unlisted. -/
abbrev memoryWf (c : Config) (m : Memory) : Prop :=
  m.Pairwise (fun p q => p.1 < q.1) ∧ ∀ p ∈ m, p.1 < 0x1000 ∧ p.2 ≠ resetByte c p.1

/-- MEM[a]. -/
def State.readByte (s : State) (a : Nat) : Byte := (findCell s.mem a).getD (resetByte s.config a)

/-- MEM[a] <- b. -/
def State.writeByte (s : State) (a : Nat) (b : Byte) : State :=
  s.setMem (putCell (resetByte s.config a) s.mem a b)

/-- Whether an access of n bytes at address a stays inside 0x000..0xFFF; an access of none does (R54, R55, R56). -/
def inBounds (a n : Nat) : Bool := n == 0 || decide (a + n - 1 ≤ 0xFFF)

/-- MemRead(addr, n) (R55); `none` is its MemoryFault((addr, n)). -/
def State.memRead (s : State) (a n : Nat) : Option (List Byte) :=
  if inBounds a n then some ((List.range n).map fun k => s.readByte (a + k)) else none

/-- MEM[a + k] <- l[k] for every k, in order. -/
def State.writeBytes (s : State) (a : Nat) : List Byte → State
  | [] => s
  | b :: rest => (s.writeByte a b).writeBytes (a + 1) rest

/-- MemWrite(addr, n, v) with n the length of v (R56); `none` is its MemoryFault((addr, n)), with nothing written. -/
def State.memWrite (s : State) (a : Nat) (l : List Byte) : Option State :=
  if inBounds a l.length then some (s.writeBytes a l) else none

/-! ### Framebuffer (44_display.md) -/

/-- The all-zero framebuffer. -/
def clearScreen : Framebuffer := Vector.replicate 32 (Vector.replicate 64 false)

/-- FB[y][x]; there is no pixel off the screen, which reads as 0. -/
def pixel (fb : Framebuffer) (y x : Nat) : Bool := if h : y < 32 ∧ x < 64 then fb[y][x] else false

/-- One 1 bit of a sprite at row yy, column xx: flip the pixel under it and note a collision when it went from 1 to 0. A pixel
past row 31 or column 63 is dropped and never collides (R191). -/
def flipPixel (yy xx : Nat) (p : Framebuffer × Bool) : Framebuffer × Bool :=
  if h : yy < 32 ∧ xx < 64 then
    (p.1.set yy (p.1[yy].set xx (!p.1[yy][xx])), p.2 || p.1[yy][xx])
  else p

/-- Bit b of a row byte, counted from the left, drawn at row yy, column x0 + b: a 0 bit leaves the pixel unchanged. Bit 7 is
the leftmost (44_display.md R190; PRESUMED, log 18: decision D16). -/
def blitBit (row : Byte) (yy x0 : Nat) (p : Framebuffer × Bool) (b : Nat) : Framebuffer × Bool :=
  if row.getLsbD (7 - b) then flipPixel yy (x0 + b) p else p

/-- The eight pixels of one sprite row. -/
def blitRow (row : Byte) (yy x0 : Nat) (p : Framebuffer × Bool) : Framebuffer × Bool :=
  (List.range 8).foldl (blitBit row yy x0) p

/-- The rows of a sprite from screen row yy down, with the collision seen so far (R191). -/
def blitRows (x0 : Nat) : List Byte → Nat → Framebuffer × Bool → Framebuffer × Bool
  | [], _, p => p
  | row :: rest, yy, p => blitRows x0 rest (yy + 1) (blitRow row yy x0 p)

/-- The XOR blit of DRW from a screen with no collision seen: the new screen, and whether a pixel went from 1 to 0 (R191). -/
def blit (fb : Framebuffer) (rows : List Byte) (x0 y0 : Nat) : Framebuffer × Bool := blitRows x0 rows y0 (fb, false)

/-! ### The inputs of a frame (10_state.md R38) -/

/-- What the input ports carry in this frame: the first fixed input, or free values where none is fixed (log 7). -/
def State.frameInput (s : State) : FrameInput :=
  match s.inputs with
  | [] => Config.freeInput s.frame
  | f :: _ => f

/-- The end of a frame's inputs: the next frame has the next ones. -/
def State.nextInputs (s : State) : State := { s with inputs := s.inputs.tail, frame := s.frame + 1 }

/-! ### The load port (10_state.md R40, 70_reset_and_hazards.md R270) -/

/-- Reset with an image: its bytes verbatim from 0x200 on. An image longer than 0xE00 bytes is refused and the core does not
start (R40, 60_exceptions.md R237). `c` is the machine's configuration, `ins` the inputs of its first frames. -/
def State.load (c : Config) (image : List Byte) (ins : List FrameInput) : Option State :=
  if image.length ≤ 0xE00 then
    some { ({ State.reset with config := c }).writeBytes 0x200 image with imageLen := image.length, inputs := ins }
  else none

/-! ### A word where the next step fetches -/

/-- The address `State.withFetchWord` stores at: PC where the image window can take a word there, else the entry point. -/
def State.fetchSlot (s : State) : Word := if 0x200 ≤ s.pc.toNat ∧ s.pc.toNat ≤ 0xFFE then s.pc else 0x200#16

/-- `s` ready to fetch the given bytes in its very next step: STATUS Running, no key-wait, PC at the slot, the bytes there, the
image reaching over them, and a poll that is no Stop (its draws stay what they were). -/
def State.placeBytes (s : State) (bytes : List Byte) : State :=
  { s.writeBytes s.fetchSlot.toNat bytes with
    pc := s.fetchSlot
    status := .running
    wait := .idle
    imageLen := max s.imageLen (s.fetchSlot.toNat + bytes.length - 0x200)
    inputs := { s.frameInput with poll := .keys 0#16 } :: s.inputs }

end Sys2Proof.Machine
end

