-- ==== Sys2Proof/Machine/Operands.lean ====
section
/-!
DEFINITION. The operand forms of 30_encoding.md R71 and R72, and the values instructions form from their operands.
-/
namespace Sys2Proof.Machine

/-- nnn zero-extended to 16 bits (R71). -/
def addrOperand (nnn : Addr) : Word := nnn.setWidth 16

/-- A byte zero-extended to 16 bits, as JP V0 and ADD I take a register (41_control_flow.md R125, 43_memory_ops.md R172). -/
def byteOperand (b : Byte) : Word := b.setWidth 16

/-- x + 1, how many registers FX55 and FX65 transfer (R176, R177). -/
def transferCount (x : RegIx) : Nat := x.toNat + 1

/-- V[0], V[1], ..., V[x] (R176). -/
def State.regsUpTo (s : State) (x : RegIx) : List Byte :=
  (List.range (transferCount x)).map fun k => s.reg (BitVec.ofNat 4 k)

/-- V[k], V[k+1], ... <- the bytes of the list, in order (R177). -/
def State.setRegsFrom (s : State) (k : Nat) : List Byte → State
  | [] => s
  | b :: rest => (s.setReg (BitVec.ofNat 4 k) b).setRegsFrom (k + 1) rest

/-- The hundreds, tens and units digit of a byte (43_memory_ops.md R175). -/
def bcdDigits (b : Byte) : List Byte :=
  [BitVec.ofNat 8 (b.toNat / 100), BitVec.ofNat 8 (b.toNat / 10 % 10), BitVec.ofNat 8 (b.toNat % 10)]

/-- Whether a register value names a digit 0..F, or a key of the keymap (R173, 45_input.md R213). -/
def isHexDigit (b : Byte) : Bool := decide (b.toNat < 16)

/-- The address of the glyph of digit d, d * 5 (R173). -/
def glyphAddr (d : Byte) : Word := BitVec.ofNat 16 (d.toNat * 5)

end Sys2Proof.Machine
end

