-- ==== Sys2Proof/Machine/Flags.lean ====
section
/-!
DEFINITION. The five flag computations and the commit of a result with its flag (42_register_ops.md R140, R141, R148 to R152).
Each computation is exact on natural numbers and is narrowed to 8 bits at the end.
-/
namespace Sys2Proof.Machine

/-- A result and its flag, as an 8-bit value 0 or 1 (R140). -/
structure Flagged where
  result : Byte
  flag : Byte
  deriving DecidableEq, Repr

/-- A flag bit as the byte VF receives. -/
def flagByte (b : Bool) : Byte := if b then 1#8 else 0#8

/-- a + b, with the carry out of bit 7 (R148). -/
def addWithCarry (a b : Byte) : Flagged where
  result := BitVec.ofNat 8 ((a.toNat + b.toNat) % 256)
  flag := flagByte (decide (a.toNat + b.toNat > 255))

/-- a - b, with not-borrow: 1 when a >= b (R149; R151 with the operands swapped). -/
def subNotBorrow (a b : Byte) : Flagged where
  result := BitVec.ofNat 8 ((a.toNat + 256 - b.toNat) % 256)
  flag := flagByte (decide (a.toNat ≥ b.toNat))

/-- a >> 1, with the bit shifted out (R150). -/
def shiftRightOut (a : Byte) : Flagged where
  result := BitVec.ofNat 8 (a.toNat / 2)
  flag := flagByte (decide (a.toNat % 2 = 1))

/-- (a << 1) mod 256, with the bit shifted out (R152). -/
def shiftLeftOut (a : Byte) : Flagged where
  result := BitVec.ofNat 8 (a.toNat * 2 % 256)
  flag := flagByte (decide (a.toNat / 128 = 1))

/-- commit(x, result, flag) (R141): two registers unless x is VF, where VF_ORDER decides which value VF keeps (log 13). -/
def State.commit (s : State) (x : RegIx) (f : Flagged) : State :=
  if x ≠ vf then (s.setReg x f.result).setReg vf f.flag
  else match s.config.vfOrder with
    | .flagLast => s.setReg vf f.flag
    | .resultLast => s.setReg vf f.result

end Sys2Proof.Machine
end

