-- ==== Sys2Proof/Machine/Control.lean ====
section
/-!
DEFINITION. Control flow (41_control_flow.md). A meaning takes the state before the fetch, PC the instruction's own address a,
and advances PC itself (40_frame_cycle.md R105), so that a fault can leave that state (R106).
-/
namespace Sys2Proof.Machine

/-- RET (R123): the check precedes every write. -/
def execRet (s : State) : Result :=
  match s.stack with
  | [] => raise (.stackUnderflow s.pc) s
  | a :: rest => .next ((s.setStack rest).setPc a)

/-- SYS under SYS_POLICY = nop (R124): nothing but the PC's advance. Under `fault` the word never reaches execute. -/
def execSys (_ : Addr) (s : State) : Result := .next s.advance

/-- JP addr (R121). -/
def execJp (nnn : Addr) (s : State) : Result := .next (s.setPc (addrOperand nnn))

/-- CALL addr (R122): pushes the advanced PC; StackOverflow when the stack is full (log 14). -/
def execCall (nnn : Addr) (s : State) : Result :=
  if s.stackFull then raise (.stackOverflow s.pc) s
  else .next ((s.push s.advance.pc).setPc (addrOperand nnn))

/-- JP V0, addr (R125; PRESUMED, log 17): the sum is not wrapped at 0x1000. -/
def execJpV0 (nnn : Addr) (s : State) : Result :=
  .next (s.setPc (addrOperand nnn + byteOperand (s.reg 0#4)))

/-- SE VX, byte (R126). -/
def execSeImm (x : RegIx) (nn : Byte) (s : State) : Result := .next (s.advance.skipIf (s.reg x == nn))

/-- SNE VX, byte (R127). -/
def execSneImm (x : RegIx) (nn : Byte) (s : State) : Result := .next (s.advance.skipIf (s.reg x != nn))

/-- SE VX, VY (R128). -/
def execSeReg (x y : RegIx) (s : State) : Result := .next (s.advance.skipIf (s.reg x == s.reg y))

/-- SNE VX, VY (R129). -/
def execSneReg (x y : RegIx) (s : State) : Result := .next (s.advance.skipIf (s.reg x != s.reg y))

end Sys2Proof.Machine
end

