-- ==== Sys2Proof/Machine/Display.lean ====
section
/-!
DEFINITION. The display instructions (44_display.md).
-/
namespace Sys2Proof.Machine

/-- CLS (R192): VF is unchanged. -/
def execCls (s : State) : Result := .next (s.advance.setScreen clearScreen)

/-- DRW VX, VY, nibble (R191): coordinates and all n bytes are read before any write; the start wraps, the sprite is clipped;
VF is the collision, DIRTY is set in every case. -/
def execDrw (x y : RegIx) (n : Nibble) (s : State) : Result :=
  match s.memRead s.index.toNat n.toNat with
  | none => raise (.memoryFault s.index.toNat n.toNat) s
  | some rows =>
    let drawn := blit s.fb rows ((s.reg x).toNat % 64) ((s.reg y).toNat % 32)
    .next ((s.advance.setScreen drawn.1).setReg vf (flagByte drawn.2))

end Sys2Proof.Machine
end

