-- ==== Sys2Proof/Machine/Input.lean ====
section
/-!
DEFINITION. The input instructions (45_input.md), over the keymap of the current frame.
-/
namespace Sys2Proof.Machine

/-- SKP VX (R210): InvalidOperand for a key index of 16 or more (R213, log 19). -/
def execSkp (x : RegIx) (s : State) : Result :=
  if isHexDigit (s.reg x) then .next (s.advance.skipIf (s.keyDown (s.reg x).toNat))
  else raise (.invalidOperand s.pc (s.reg x)) s

/-- SKNP VX (R211): InvalidOperand for a key index of 16 or more (R213, log 19). -/
def execSknp (x : RegIx) (s : State) : Result :=
  if isHexDigit (s.reg x) then .next (s.advance.skipIf (!s.keyDown (s.reg x).toNat))
  else raise (.invalidOperand s.pc (s.reg x)) s

/-- LD VX, K (R212): captures this frame's keymap; VX is written by the frame that resolves the wait. -/
def execLdVxK (x : RegIx) (s : State) : Result := .next (s.advance.setWait (.waiting x s.keys))

end Sys2Proof.Machine
end

