-- ==== Sys2Proof/Machine/MemoryAccess.lean ====
section
/-!
DEFINITION. Memory operations (43_memory_ops.md). Addresses are natural numbers I + k, checked over the whole range before any
write (R170), so a faulting instruction changes nothing.
-/
namespace Sys2Proof.Machine

/-- LD I, addr (R171). -/
def execLdI (nnn : Addr) (s : State) : Result := .next (s.advance.setIndex (addrOperand nnn))

/-- ADD I, VX (R172): modulo 2^16, no flag. -/
def execAddI (x : RegIx) (s : State) : Result := .next (s.advance.setIndex (s.index + byteOperand (s.reg x)))

/-- LD F, VX (R173): the glyph's address; InvalidOperand for a value of 16 or more (log 19). -/
def execLdF (x : RegIx) (s : State) : Result :=
  if isHexDigit (s.reg x) then .next (s.advance.setIndex (glyphAddr (s.reg x)))
  else raise (.invalidOperand s.pc (s.reg x)) s

/-- LD B, VX (R175): I is unchanged. -/
def execLdB (x : RegIx) (s : State) : Result :=
  match s.memWrite s.index.toNat (bcdDigits (s.reg x)) with
  | some t => .next t.advance
  | none => raise (.memoryFault s.index.toNat 3) s

/-- LD [I], VX (R176): I advances by x + 1. -/
def execLdMemVx (x : RegIx) (s : State) : Result :=
  match s.memWrite s.index.toNat (s.regsUpTo x) with
  | some t => .next (t.advance.setIndex (s.index + BitVec.ofNat 16 (transferCount x)))
  | none => raise (.memoryFault s.index.toNat (transferCount x)) s

/-- LD VX, [I] (R177): I advances by x + 1. -/
def execLdVxMem (x : RegIx) (s : State) : Result :=
  match s.memRead s.index.toNat (transferCount x) with
  | some l => .next ((s.advance.setRegsFrom 0 l).setIndex (s.index + BitVec.ofNat 16 (transferCount x)))
  | none => raise (.memoryFault s.index.toNat (transferCount x)) s

end Sys2Proof.Machine
end

