-- ==== Sys2Proof/Machine/Register.lean ====
section
/-!
DEFINITION. Register operations (42_register_ops.md). Sources are read in the state before the instruction (R140).
-/
namespace Sys2Proof.Machine

/-- LD VX, byte (R142). -/
def execLdImm (x : RegIx) (nn : Byte) (s : State) : Result := .next (s.advance.setReg x nn)

/-- ADD VX, byte (R143): wraps, no flag. -/
def execAddImm (x : RegIx) (nn : Byte) (s : State) : Result := .next (s.advance.setReg x (s.reg x + nn))

/-- LD VX, VY (R144). -/
def execLdReg (x y : RegIx) (s : State) : Result := .next (s.advance.setReg x (s.reg y))

/-- OR VX, VY (R145): VF unchanged unless it is VX (log 26). -/
def execOrReg (x y : RegIx) (s : State) : Result := .next (s.advance.setReg x (s.reg x ||| s.reg y))

/-- AND VX, VY (R146): VF unchanged unless it is VX (log 26). -/
def execAndReg (x y : RegIx) (s : State) : Result := .next (s.advance.setReg x (s.reg x &&& s.reg y))

/-- XOR VX, VY (R147): VF unchanged unless it is VX (log 26). -/
def execXorReg (x y : RegIx) (s : State) : Result := .next (s.advance.setReg x (s.reg x ^^^ s.reg y))

/-- ADD VX, VY (R148). -/
def execAddReg (x y : RegIx) (s : State) : Result := .next (s.advance.commit x (addWithCarry (s.reg x) (s.reg y)))

/-- SUB VX, VY (R149): VX - VY. -/
def execSub (x y : RegIx) (s : State) : Result := .next (s.advance.commit x (subNotBorrow (s.reg x) (s.reg y)))

/-- SHR VX (R150): field y is ignored. -/
def execShr (x _y : RegIx) (s : State) : Result := .next (s.advance.commit x (shiftRightOut (s.reg x)))

/-- SUBN VX, VY (R151): VY - VX. -/
def execSubn (x y : RegIx) (s : State) : Result := .next (s.advance.commit x (subNotBorrow (s.reg y) (s.reg x)))

/-- SHL VX (R152): field y is ignored. -/
def execShl (x _y : RegIx) (s : State) : Result := .next (s.advance.commit x (shiftLeftOut (s.reg x)))

/-- RND VX, byte (R153; PRESUMED, log 17): the frame's draw `rnd`, a FREE VALUE (log 8), masked by nn. -/
def execRnd (x : RegIx) (nn : Byte) (s : State) : Result := .next (s.advance.setReg x (s.frameInput.rnd &&& nn))

end Sys2Proof.Machine
end

