-- ==== Sys2Proof/Machine/Timer.lean ====
section
/-!
DEFINITION. The timer instructions (46_timers.md), the tick and the audio event (60_exceptions.md R245, R246).
-/
namespace Sys2Proof.Machine

/-- LD VX, DT (R220). -/
def execLdVxDt (x : RegIx) (s : State) : Result := .next (s.advance.setReg x s.dt)

/-- LD DT, VX (R221). -/
def execLdDtVx (x : RegIx) (s : State) : Result := .next (s.advance.setDt (s.reg x))

/-- LD ST, VX (R222). -/
def execLdStVx (x : RegIx) (s : State) : Result := .next (s.advance.setSt (s.reg x))

/-- One timer's tick: down by one, saturating at zero (R245). -/
def tickDown (b : Byte) : Byte := if b = 0#8 then 0#8 else b - 1#8

/-- The zero transition of the sound timer: ST was not 0 before the tick and is 0 after it (R245). -/
def zeroTransition (stBefore stAfter : Byte) : Bool := stBefore != 0#8 && stAfter == 0#8

/-- What the audio port is driven with after the tick (R246; log 21: the spec's decision D19). -/
def audioEvent (zero : Bool) (st : Byte) : AudioEvent := if zero then .stop else if st ≠ 0#8 then .play else .none

end Sys2Proof.Machine
end

