-- ==== Sys2Proof/Machine/Cycle.lean ====
section
/-!
DEFINITION. The frame step (40_frame_cycle.md): input, then a key-wait or one instruction, then render, then the timers and the
audio event.
-/
namespace Sys2Proof.Machine

/-! ### Fetch and decode (R103, R104) -/

/-- Whether fetch at address a is admitted by the window (20_memory.md R57; log 15). -/
def State.fetchAdmitted (s : State) (a : Nat) : Bool :=
  match s.config.fetchWindow with
  | .image => decide (0x200 ≤ a) && decide (a + 2 ≤ 0x200 + s.imageLen)
  | .memory => decide (a + 1 ≤ 0xFFF)

/-- What fetching and decoding gives: the instruction, or the fault that is raised. -/
inductive Fetched where
  | instr (i : Instr)
  | fault (k : FaultKind)
  deriving DecidableEq, Repr

/-- Decoding of the bytes fetched at address a; fewer than a word's two bytes are a MemoryFault of the fetch. -/
def decodeFetched (p : SysPolicy) (a : Nat) (bytes : List Byte) : Fetched :=
  match (decodeBytes p bytes).1 with
  | .instr i => .instr i
  | .decodeError w => .fault (.decodeError w)
  | .truncated => .fault (.memoryFault a 2)

/-- Fetch of the word at PC, then decode: window first, then bounds, then decode (R103, R104, 60_exceptions.md R238). -/
def State.fetchDecode (s : State) : Fetched :=
  if s.fetchAdmitted s.pc.toNat then
    match s.memRead s.pc.toNat 2 with
    | some bytes => decodeFetched s.config.sysPolicy s.pc.toNat bytes
    | none => .fault (.memoryFault s.pc.toNat 2)
  else .fault (.memoryFault s.pc.toNat 2)

/-- The setting under which a word is legal, if one is: a SYS word needs SYS_POLICY = nop (30_encoding.md R75; log 11). -/
def State.admitWord (s : State) (w : Word) : State :=
  match decodeWord .nop w with
  | .instr (.sys _) => { s with config := { s.config with sysPolicy := .nop } }
  | _ => s

/-! ### Key-wait resolution (R107) -/

/-- Rel: the keys captured or seen down during the wait, now up. -/
def releasedKeys (captured now : KeyMap) : KeyMap := (captured ||| now) &&& ~~~now

/-- The lowest key of a set; 0 for the empty one. -/
def lowestKey (set : KeyMap) : Nibble := BitVec.ofNat 4 (((List.range 16).find? fun k => set.getLsbD k).getD 0)

/-- choose(Rel, kchoice): the drawn key where it is a released one, else the lowest (decision D13; log 9). Every released key
is the choice of some draw. -/
def chooseKey (rel : KeyMap) (kchoice : Nibble) : Nibble :=
  if rel.getLsbD kchoice.toNat then kchoice else lowestKey rel

/-- resolve_wait(r, C, kchoice), after K has been replaced. -/
def State.resolveWait (s : State) (r : RegIx) (captured : KeyMap) (kchoice : Nibble) : State :=
  if releasedKeys captured s.keys = 0#16 then s.setWait (.waiting r (captured ||| s.keys))
  else (s.setReg r ((chooseKey (releasedKeys captured s.keys) kchoice).setWidth 8)).setWait .idle

/-! ### The phases -/

/-- The output ports at the start of a frame: not driven yet (10_state.md R39). -/
def State.clearOutputs (s : State) : State := { s with renderOut := none, audioOut := none }

/-- Phase 3 (R110): emit a copy of FB iff DIRTY is 1, then DIRTY <- 0. -/
def State.renderPhase (s : State) : State :=
  if s.dirty then { s with renderOut := some s.fb, dirty := false } else s

/-- Phase 4 (R111): one tick, then the audio port (60_exceptions.md R245, R246). -/
def State.timerPhase (s : State) : State :=
  { s with
    dt := tickDown s.dt
    st := tickDown s.st
    audioOut := some (audioEvent (zeroTransition s.st (tickDown s.st)) (tickDown s.st)) }

/-- Phases 3 and 4, unless phase 2 raised a fault, which ends the frame at once (R112). -/
def State.finish (s : State) : State :=
  match s.status with
  | .running => s.renderPhase.timerPhase
  | _ => s

/-- Phase 2 with WAIT Idle: exactly one instruction, or the fault of its fetch or decode (R102 to R106). -/
def stepInstruction (s : State) : Result :=
  match s.fetchDecode with
  | .instr i => exec i s
  | .fault k => raise k s

/-- Phase 2 (R102): the wait is updated, or one instruction executes. -/
def phaseTwo (kchoice : Nibble) (s : State) : Result :=
  match s.wait with
  | .waiting r captured => .next (s.resolveWait r captured kchoice)
  | .idle => stepInstruction s

/-- An answer with the rest of its frame: phases 3 and 4, and the inputs used up. -/
def finishFrame : Result → Result
  | .next s => .next s.finish.nextInputs
  | .fault f => .fault f
  | .refused r => .refused r

/-- One frame of a running core (R100): Stop is tested before anything else (R101; log 20). -/
def runFrame (s : State) : Result :=
  match s.frameInput.poll with
  | .stop => .next (s.clearOutputs.setStatus .stopped).nextInputs
  | .keys k => finishFrame (phaseTwo s.frameInput.kchoice (s.clearOutputs.setKeys k))

/-- A frame, where STATUS is Running; in Stopped and Faulted the core takes no further step (10_state.md R33). -/
def stepCore (s : State) : Result :=
  match s.status with
  | .running => runFrame s
  | .stopped => .fault .stopped
  | .faulted k => .fault (.faulted k)

end Sys2Proof.Machine
end

