-- ==== Sys2Proof/Machine/Step.lean ====
section
/-!
DEFINITION. One step of the core, and an instruction word placed where it fetches next.
-/
namespace Sys2Proof.Machine

/-- One step: one frame (40_frame_cycle.md R100). -/
def step (s : State) : Host.Outcome State Fault Refusal := Sys2Proof.Machine.stepCore s

/-- `s` with the instruction of bits `w` stored where its next step fetches, and all that running it takes (log 12). The word
stands big-endian, as the hardware stores it (20_memory.md R51). For a SYS word SYS_POLICY is nop (log 11). -/
def State.withFetchWord (s : State) (nbits w : Nat) : State :=
  (s.admitWord (BitVec.ofNat 16 (w % 2 ^ nbits))).placeBytes (bytesOfWord (BitVec.ofNat 16 (w % 2 ^ nbits)))

end Sys2Proof.Machine
end

