-- ==== Sys2Proof/Safety.lean ====
section
/-!
DEFINITION. The terms claims are stated in: how a run stands, what an instruction leaves unchanged, the invariants of the
machine, and what a sprite covers.
-/
namespace Sys2Proof.Machine

/-! ### How a run stands (10_state.md R33, R43) -/

/-- The core still runs. -/
abbrev State.Running (s : State) : Prop := s.status = .running

/-- The run has ended in an error (R43 (b)); a safe run never reaches such a state. -/
abbrev State.Faulted (s : State) : Prop := ∃ k, s.status = .faulted k

/-- The run has ended, in one way or the other: the core takes no further step (R33). -/
abbrev State.Terminal (s : State) : Prop := s.status ≠ .running

/-! ### What stays as it was -/

/-- The pieces of the state besides the general registers. -/
inductive Piece where
  | pc
  | index
  | stack
  | memory
  | screen
  | dirty
  | delay
  | sound
  | keys
  | wait
  | status
  | image
  | config
  | inputs
  | outputs
  deriving DecidableEq, Repr

/-- `t` agrees with `s` in one piece. Memory agrees when every byte reads the same. -/
def Piece.Same (s t : State) : Piece → Prop
  | .pc => t.pc = s.pc
  | .index => t.index = s.index
  | .stack => t.stack = s.stack
  | .memory => ∀ a, t.readByte a = s.readByte a
  | .screen => t.fb = s.fb
  | .dirty => t.dirty = s.dirty
  | .delay => t.dt = s.dt
  | .sound => t.st = s.st
  | .keys => t.keys = s.keys
  | .wait => t.wait = s.wait
  | .status => t.status = s.status
  | .image => t.imageLen = s.imageLen
  | .config => t.config = s.config
  | .inputs => t.inputs = s.inputs ∧ t.frame = s.frame
  | .outputs => t.renderOut = s.renderOut ∧ t.audioOut = s.audioOut

/-- Every piece but the named ones is unchanged. -/
def KeepsBut (changed : List Piece) (s t : State) : Prop := ∀ p, p ∉ changed → p.Same s t

/-- Every general register but the named ones is unchanged. -/
def KeepsRegsBut (changed : List RegIx) (s t : State) : Prop := ∀ r, r ∉ changed → t.reg r = s.reg r

/-- Every byte of memory outside addr .. addr + n - 1 reads as before. -/
def KeepsBytesBut (addr n : Nat) (s t : State) : Prop :=
  ∀ a, ¬(addr ≤ a ∧ a < addr + n) → t.readByte a = s.readByte a

/-- PC has advanced past the instruction (40_frame_cycle.md R105), said for the PCs where the modulus 2^16 of decision D4 does not
act (log 23); no fetch at the one other address is ever admitted. -/
def Advances (s t : State) : Prop := s.pc.toNat < 0xFFFE → t.pc.toNat = s.pc.toNat + 2

/-- `t` holds what commit(x, result, flag) leaves in the registers of `s` (42_register_ops.md R141): the result in VX and the
flag in VF, or, for x = F, the one VF_ORDER names; every other register as it was. -/
def Committed (x : RegIx) (result flag : Nat) (s t : State) : Prop :=
  (x ≠ vf → (t.reg x).toNat = result ∧ (t.reg vf).toNat = flag) ∧
  (x = vf → s.config.vfOrder = .flagLast → (t.reg vf).toNat = flag) ∧
  (x = vf → s.config.vfOrder = .resultLast → (t.reg vf).toNat = result) ∧
  KeepsRegsBut [x, vf] s t

/-- The registers an instruction names as its destination (10_state.md R21, R22): field x, or V0..VX for a register load. The
destination of a key-wait is written by the frame that resolves it, not by the instruction. -/
def destinations (i : Instr) (r : RegIx) : Prop :=
  match i with
  | .ldImm x _ | .addImm x _ | .rnd x _ | .ldVxDt x => r = x
  | .ldReg x _ | .orReg x _ | .andReg x _ | .xorReg x _ => r = x
  | .addReg x _ | .sub x _ | .shr x _ | .subn x _ | .shl x _ => r = x
  | .ldVxMem x => r.toNat ≤ x.toNat
  | .cls | .ret | .sys _ | .jp _ | .call _ | .seImm _ _ | .sneImm _ _ | .seReg _ _ | .sneReg _ _ | .ldI _ | .jpV0 _ => False
  | .drw _ _ _ | .skp _ | .sknp _ | .ldVxK _ | .ldDtVx _ | .ldStVx _ | .addI _ | .ldF _ | .ldB _ | .ldMemVx _ => False

/-- The six instructions that write VF as a side effect (10_state.md R22). -/
def flagWriter : Instr → Prop
  | .addReg _ _ | .sub _ _ | .shr _ _ | .subn _ _ | .shl _ _ | .drw _ _ _ => True
  | _ => False

/-- The instructions that may skip one word (41_control_flow.md R120). -/
def skipFamily : Instr → Prop
  | .seImm _ _ | .sneImm _ _ | .seReg _ _ | .sneReg _ _ | .skp _ | .sknp _ => True
  | _ => False

/-- The instructions that overwrite PC (40_frame_cycle.md R105). -/
def overwritesPc : Instr → Prop
  | .jp _ | .call _ | .ret | .jpV0 _ => True
  | _ => False

/-- A run: each state is the step of the one before, over the first n frames. -/
def RunOf (f : Nat → State) (n : Nat) : Prop := ∀ j, j < n → step (f j) = .next (f (j + 1))

/-! ### Invariants -/

/-- The memory is in its canonical form. -/
abbrev State.MemoryOk (s : State) : Prop := memoryWf s.config s.mem

/-- The depth of the stack is within STACK_LIMIT (10_state.md R25, R35). -/
def State.StackOk (s : State) : Prop := ∀ n, s.config.stackLimit = some n → s.sp ≤ n

/-- The image lies inside memory (10_state.md R40). -/
abbrev State.ImageOk (s : State) : Prop := s.imageLen ≤ 0xE00

/-- Between frames nothing waits to be rendered (40_frame_cycle.md R110). -/
abbrev State.ScreenOk (s : State) : Prop := s.dirty = false

/-! ### Sprites (44_display.md R190) -/

/-- Whether a sprite of the given rows, started at column x0 and row y0, has a 1 bit over column x, row y of the screen. -/
def spriteBit (rows : List Byte) (x0 y0 y x : Nat) : Bool :=
  decide (y0 ≤ y) && decide (x0 ≤ x) && decide (x < x0 + 8) && (rows.getD (y - y0) 0#8).getLsbD (7 - (x - x0))

end Sys2Proof.Machine
end

