-- ==== Sys2Proof/Certificates/Slice0/Obligations.lean ====
section
/-!
DEFINITION. The statements for the provers. Each names the rules of spec/ it formalises; where a rule's own text marks a clause
as a decision, a derivation or general knowledge, the docstring says so and names the row of the assumption log.
-/

open Sys2Proof Sys2Proof.Machine

/-! ## Decoding (30_encoding.md) -/

/-- Words written out from the patterns of R74, one for each selector shape. PRESUMED (log 6): the patterns are the spec's general
knowledge. -/
def Obligations.WordsDecodeToTheirInstructions : Prop :=
  decodeWord .fault 0b0000000011100000#16 = .instr .cls ∧
  decodeWord .fault 0b0000000011101110#16 = .instr .ret ∧
  decodeWord .nop 0b0000000100100011#16 = .instr (.sys 0x123#12) ∧
  decodeWord .fault 0b0010001101000101#16 = .instr (.call 0x345#12) ∧
  decodeWord .fault 0b0111000100000011#16 = .instr (.addImm 1#4 3#8) ∧
  decodeWord .fault 0b1000000101010110#16 = .instr (.shr 1#4 5#4) ∧
  decodeWord .fault 0b1010001011110000#16 = .instr (.ldI 0x2F0#12) ∧
  decodeWord .fault 0b1101101010110101#16 = .instr (.drw 0xA#4 0xB#4 5#4) ∧
  decodeWord .fault 0b1110010110100001#16 = .instr (.sknp 5#4) ∧
  decodeWord .fault 0b1111001000001010#16 = .instr (.ldVxK 2#4) ∧
  decodeWord .fault 0b1111010101100101#16 = .instr (.ldVxMem 5#4)

/-- Decode and encode agree, every operand at every value: the bytes of a well-formed instruction's word decode to it (R70, R74,
R75). A SYS word is legal only under SYS_POLICY = nop (decision D5, log 11). -/
def Obligations.DecodingAnEncodedInstructionGivesItBack : Prop :=
  ∀ (p : SysPolicy) (i : Instr), i.wellFormed = true → (p = .nop ∨ ∀ nnn, i ≠ .sys nnn) →
    decodeBytes p (bytesOfWord (encode i)) = (.instr i, [])

/-- No bit of a legal word is dropped: what it decodes to is well-formed and encodes to that very word (R74, R75, R78). -/
def Obligations.EncodingADecodedWordGivesItBack : Prop :=
  ∀ (p : SysPolicy) (w : Word) (i : Instr), decodeWord p w = .instr i → i.wellFormed = true ∧ encode i = w

/-- Exactly the words of R77 raise DecodeError, and each with itself as the info (R73, R76, R77, 60_exceptions.md R232). Rests on the
spec's decisions D5 and D6 (log 11, log 27) and on the patterns of R74 (log 6). -/
def Obligations.ExactlyTheIllegalWordsFailToDecode : Prop :=
  ∀ (p : SysPolicy) (w : Word),
    ((∃ w', decodeWord p w = .decodeError w') ↔
      (fieldC w = 0x0#4 ∧ p = .fault ∧ w ≠ 0x00E0#16 ∧ w ≠ 0x00EE#16) ∨
      (fieldC w = 0x5#4 ∧ fieldN w ≠ 0#4) ∨
      (fieldC w = 0x8#4 ∧ fieldN w ∈ [0x8#4, 0x9#4, 0xA#4, 0xB#4, 0xC#4, 0xD#4, 0xF#4]) ∨
      (fieldC w = 0x9#4 ∧ fieldN w ≠ 0#4) ∨
      (fieldC w = 0xE#4 ∧ fieldNN w ∉ [0x9E#8, 0xA1#8]) ∨
      (fieldC w = 0xF#4 ∧
        fieldNN w ∉ [0x07#8, 0x0A#8, 0x15#8, 0x18#8, 0x1E#8, 0x29#8, 0x33#8, 0x55#8, 0x65#8])) ∧
    (∀ w', decodeWord p w = .decodeError w' → w' = w) ∧ decodeWord p w ≠ .truncated

/-! ## Control flow (41_control_flow.md) -/

/-- JP addr (R121): PC is the target, and nothing else changes. -/
def Obligations.JpSetsPcToTheAddress : Prop :=
  ∀ (nnn : Addr) (s : State),
    (∀ p, decodeWord p (addressWord 0x1#4 nnn) = .instr (.jp nnn)) ∧
    ∃ t, exec (.jp nnn) s = .next t ∧ t.pc.toNat = nnn.toNat ∧ KeepsRegsBut [] s t ∧ KeepsBut [.pc] s t

/-- CALL addr (R122): pushes the address of the word after the CALL and jumps; with the stack full it faults and changes nothing
else. The fault is the spec's decision D9 (log 14). -/
def Obligations.CallPushesTheReturnAddressAndJumps : Prop :=
  ∀ (nnn : Addr) (s : State),
    (∀ p, decodeWord p (addressWord 0x2#4 nnn) = .instr (.call nnn)) ∧
    (s.config.stackLimit ≠ some s.sp →
      ∃ t, exec (.call nnn) s = .next t ∧ t.stack = (s.pc + 2#16) :: s.stack ∧ t.sp = s.sp + 1 ∧ t.pc.toNat = nnn.toNat ∧
        KeepsRegsBut [] s t ∧ KeepsBut [.pc, .stack] s t) ∧
    (s.config.stackLimit = some s.sp →
      ∃ t, exec (.call nnn) s = .next t ∧ t.status = .faulted (.stackOverflow s.pc) ∧
        KeepsRegsBut [] s t ∧ KeepsBut [.status] s t)

/-- RET (R123): pops the latest return address into PC; with the stack empty it faults and changes nothing else. -/
def Obligations.RetPopsTheReturnAddress : Prop :=
  ∀ s : State,
    (∀ p, decodeWord p 0x00EE#16 = .instr .ret) ∧
    (∀ a rest, s.stack = a :: rest →
      ∃ t, exec .ret s = .next t ∧ t.pc = a ∧ t.stack = rest ∧ t.sp + 1 = s.sp ∧
        KeepsRegsBut [] s t ∧ KeepsBut [.pc, .stack] s t) ∧
    (s.sp = 0 →
      ∃ t, exec .ret s = .next t ∧ t.status = .faulted (.stackUnderflow s.pc) ∧
        KeepsRegsBut [] s t ∧ KeepsBut [.status] s t)

/-- A call and the return from it: execution goes on after the CALL with the stack as before (R122, R123). -/
def Obligations.RetUndoesCall : Prop :=
  ∀ (nnn : Addr) (s t : State), s.Running → exec (.call nnn) s = .next t → t.Running →
    ∃ u, exec .ret t = .next u ∧ u.pc = s.pc + 2#16 ∧ u.stack = s.stack ∧ KeepsRegsBut [] s u ∧ KeepsBut [.pc] s u

/-- SYS addr (R124): DecodeError under SYS_POLICY = fault; under nop it decodes, and executing it only advances PC. The spec's
decision D5 (log 11). -/
def Obligations.SysOnlyAdvancesPcWhereItIsLegal : Prop :=
  ∀ (nnn : Addr) (s : State),
    (nnn ≠ 0x0E0#12 → nnn ≠ 0x0EE#12 →
      decodeWord .nop (addressWord 0x0#4 nnn) = .instr (.sys nnn) ∧
      decodeWord .fault (addressWord 0x0#4 nnn) = .decodeError (addressWord 0x0#4 nnn)) ∧
    ∃ t, exec (.sys nnn) s = .next t ∧ t.pc = s.pc + 2#16 ∧ KeepsRegsBut [] s t ∧ KeepsBut [.pc] s t

/-- JP V0, addr (R125): the sum of the address and V0, not wrapped at 0x1000. The spec's general knowledge (decision D15, log 17). -/
def Obligations.JpV0SetsPcToTheSum : Prop :=
  ∀ (nnn : Addr) (s : State),
    (∀ p, decodeWord p (addressWord 0xB#4 nnn) = .instr (.jpV0 nnn)) ∧
    ∃ t, exec (.jpV0 nnn) s = .next t ∧ t.pc.toNat = nnn.toNat + (s.reg 0#4).toNat ∧
      KeepsRegsBut [] s t ∧ KeepsBut [.pc] s t

/-- SE and SNE against an immediate (R126, R127): past the next word too when the condition holds, every register kept. PC is given
where the modulus of decision D4 does not act (log 23). -/
def Obligations.ImmediateSkipsSkipOneWord : Prop :=
  ∀ (x : RegIx) (nn : Byte) (s : State),
    (∀ p, decodeWord p (byteWord 0x3#4 x nn) = .instr (.seImm x nn)) ∧
    (∀ p, decodeWord p (byteWord 0x4#4 x nn) = .instr (.sneImm x nn)) ∧
    (∃ t, exec (.seImm x nn) s = .next t ∧ (s.pc.toNat < 0xFFFC → t.pc.toNat = s.pc.toNat + (if s.reg x = nn then 4 else 2)) ∧
      KeepsRegsBut [] s t ∧ KeepsBut [.pc] s t) ∧
    (∃ t, exec (.sneImm x nn) s = .next t ∧ (s.pc.toNat < 0xFFFC → t.pc.toNat = s.pc.toNat + (if s.reg x = nn then 2 else 4)) ∧
      KeepsRegsBut [] s t ∧ KeepsBut [.pc] s t)

/-- SE and SNE between registers (R120, R128, R129); with n != 0 their words are illegal, the spec's decision D6 (log 27). -/
def Obligations.RegisterSkipsSkipOneWord : Prop :=
  ∀ (x y : RegIx) (s : State),
    (∀ p n, decodeWord p (nibbleWord 0x5#4 x y n) =
      if n = 0#4 then .instr (.seReg x y) else .decodeError (nibbleWord 0x5#4 x y n)) ∧
    (∀ p n, decodeWord p (nibbleWord 0x9#4 x y n) =
      if n = 0#4 then .instr (.sneReg x y) else .decodeError (nibbleWord 0x9#4 x y n)) ∧
    (∃ t, exec (.seReg x y) s = .next t ∧ t.pc.toNat = (s.pc.toNat + (if s.reg x = s.reg y then 4 else 2)) % 65536 ∧
      KeepsRegsBut [] s t ∧ KeepsBut [.pc] s t) ∧
    (∃ t, exec (.sneReg x y) s = .next t ∧ t.pc.toNat = (s.pc.toNat + (if s.reg x = s.reg y then 2 else 4)) % 65536 ∧
      KeepsRegsBut [] s t ∧ KeepsBut [.pc] s t)

/-! ## Register operations (42_register_ops.md) -/

/-- LD VX, byte and LD VX, VY (R142, R144). -/
def Obligations.LoadsAssignTheirSource : Prop :=
  ∀ (x y : RegIx) (nn : Byte) (s : State),
    (∀ p, decodeWord p (byteWord 0x6#4 x nn) = .instr (.ldImm x nn)) ∧
    (∀ p, decodeWord p (nibbleWord 0x8#4 x y 0x0#4) = .instr (.ldReg x y)) ∧
    (∃ t, exec (.ldImm x nn) s = .next t ∧ t.reg x = nn ∧ Advances s t ∧
      KeepsRegsBut [x] s t ∧ KeepsBut [.pc] s t) ∧
    (∃ t, exec (.ldReg x y) s = .next t ∧ t.reg x = s.reg y ∧ Advances s t ∧
      KeepsRegsBut [x] s t ∧ KeepsBut [.pc] s t)

/-- ADD VX, byte (R143): wraps to 8 bits; VF is kept even when the sum exceeds 255, unless it is VX. -/
def Obligations.AddImmediateWrapsWithoutAFlag : Prop :=
  ∀ (x : RegIx) (nn : Byte) (s : State),
    (∀ p, decodeWord p (byteWord 0x7#4 x nn) = .instr (.addImm x nn)) ∧
    ∃ t, exec (.addImm x nn) s = .next t ∧ (t.reg x).toNat = ((s.reg x).toNat + nn.toNat) % 256 ∧ Advances s t ∧
      KeepsRegsBut [x] s t ∧ KeepsBut [.pc] s t

/-- OR, AND and XOR, bit by bit (R145, R146, R147); no other register changes, VF included: the spec's decision D8 (log 26). -/
def Obligations.LogicOperationsCombineEveryBit : Prop :=
  ∀ (x y : RegIx) (s : State),
    (∀ p, decodeWord p (nibbleWord 0x8#4 x y 0x1#4) = .instr (.orReg x y)) ∧
    (∀ p, decodeWord p (nibbleWord 0x8#4 x y 0x2#4) = .instr (.andReg x y)) ∧
    (∀ p, decodeWord p (nibbleWord 0x8#4 x y 0x3#4) = .instr (.xorReg x y)) ∧
    (∃ t, exec (.orReg x y) s = .next t ∧
      (∀ j, (t.reg x).getLsbD j = ((s.reg x).getLsbD j || (s.reg y).getLsbD j)) ∧ t.pc = s.pc + 2#16 ∧
      KeepsRegsBut [x] s t ∧ KeepsBut [.pc] s t) ∧
    (∃ t, exec (.andReg x y) s = .next t ∧
      (∀ j, (t.reg x).getLsbD j = ((s.reg x).getLsbD j && (s.reg y).getLsbD j)) ∧ t.pc = s.pc + 2#16 ∧
      KeepsRegsBut [x] s t ∧ KeepsBut [.pc] s t) ∧
    (∃ t, exec (.xorReg x y) s = .next t ∧
      (∀ j, (t.reg x).getLsbD j = ((s.reg x).getLsbD j ^^ (s.reg y).getLsbD j)) ∧ t.pc = s.pc + 2#16 ∧
      KeepsRegsBut [x] s t ∧ KeepsBut [.pc] s t)

/-- ADD VX, VY (R148, R141): VF is 1 iff the 9-bit sum exceeds 255, the result is the sum modulo 256. For x = F,
VF_ORDER decides as R141 writes it: the spec's decision D7 (log 13). -/
def Obligations.AddRegistersSetsTheCarry : Prop :=
  ∀ (x y : RegIx) (s : State),
    (∀ p, decodeWord p (nibbleWord 0x8#4 x y 0x4#4) = .instr (.addReg x y)) ∧
    ∃ t, exec (.addReg x y) s = .next t ∧
      Committed x (((s.reg x).toNat + (s.reg y).toNat) % 256)
        (if (s.reg x).toNat + (s.reg y).toNat > 255 then 1 else 0) s t ∧
      Advances s t ∧ KeepsBut [.pc] s t

/-- SUB VX, VY and SUBN VX, VY (R149, R151, R141): VF is 1 iff the minuend is at least the subtrahend; a smaller minuend a gives
256 - (b - a). For x = F, VF_ORDER decides as R141 writes it: the spec's decision D7 (log 13). -/
def Obligations.SubtractionsSetNotBorrow : Prop :=
  ∀ (x y : RegIx) (s : State) (a b : Nat), a = (s.reg x).toNat → b = (s.reg y).toNat →
    (∀ p, decodeWord p (nibbleWord 0x8#4 x y 0x5#4) = .instr (.sub x y)) ∧
    (∀ p, decodeWord p (nibbleWord 0x8#4 x y 0x7#4) = .instr (.subn x y)) ∧
    (∃ t, exec (.sub x y) s = .next t ∧
      Committed x (if a ≥ b then a - b else 256 - (b - a)) (if a ≥ b then 1 else 0) s t ∧
      Advances s t ∧ KeepsBut [.pc] s t) ∧
    (∃ t, exec (.subn x y) s = .next t ∧
      Committed x (if b ≥ a then b - a else 256 - (a - b)) (if b ≥ a then 1 else 0) s t ∧
      Advances s t ∧ KeepsBut [.pc] s t)

/-- SHR VX and SHL VX (R150, R152, R141): one bit, the bit shifted out in VF, whatever field y is; for x = F, VF_ORDER decides
(decision D7, log 13). -/
def Obligations.ShiftsMoveOneBitIntoVf : Prop :=
  ∀ (x y : RegIx) (s : State),
    (∀ p, decodeWord p (nibbleWord 0x8#4 x y 0x6#4) = .instr (.shr x y)) ∧
    (∀ p, decodeWord p (nibbleWord 0x8#4 x y 0xE#4) = .instr (.shl x y)) ∧
    (∃ t, exec (.shr x y) s = .next t ∧ Committed x ((s.reg x).toNat >>> 1) ((s.reg x).getLsbD 0).toNat s t ∧
      t.pc = s.pc + 2#16 ∧ KeepsBut [.pc] s t) ∧
    (∃ t, exec (.shl x y) s = .next t ∧ Committed x (((s.reg x).toNat <<< 1) % 256) ((s.reg x).getLsbD 7).toNat s t ∧
      t.pc = s.pc + 2#16 ∧ KeepsBut [.pc] s t)

/-- RND VX, byte (R153): the frame's draw masked by nn, for every draw. The spec's general knowledge (decision D14, log 8, log 17). -/
def Obligations.RndMasksTheDraw : Prop :=
  ∀ (x : RegIx) (nn : Byte) (s : State),
    (∀ p, decodeWord p (byteWord 0xC#4 x nn) = .instr (.rnd x nn)) ∧
    ∃ t, exec (.rnd x nn) s = .next t ∧
      (∀ j, (t.reg x).getLsbD j = (s.frameInput.rnd.getLsbD j && nn.getLsbD j)) ∧ t.pc = s.pc + 2#16 ∧
      KeepsRegsBut [x] s t ∧ KeepsBut [.pc] s t

/-- The draw `rnd`, and every other coming input, is read by no instruction but RND (R153, 40_frame_cycle.md R106). -/
def Obligations.OnlyRndReadsTheDraw : Prop :=
  ∀ (i : Instr) (s t : State) (ins : List FrameInput) (n : Nat), (∀ x nn, i ≠ .rnd x nn) →
    exec i s = .next t → exec i { s with inputs := ins, frame := n } = .next { t with inputs := ins, frame := n }

/-! ## Memory operations (43_memory_ops.md, 20_memory.md) -/

/-- LD I, addr and ADD I, VX (R171, R172): 16 bits, no flag. The wrap modulo 2^16 is the spec's decision D4 (log 23). -/
def Obligations.IndexOperationsSetI : Prop :=
  ∀ (nnn : Addr) (x : RegIx) (s : State),
    (∀ p, decodeWord p (addressWord 0xA#4 nnn) = .instr (.ldI nnn)) ∧
    (∀ p, decodeWord p (byteWord 0xF#4 x 0x1E#8) = .instr (.addI x)) ∧
    (∃ t, exec (.ldI nnn) s = .next t ∧ t.index.toNat = nnn.toNat ∧ t.pc = s.pc + 2#16 ∧
      KeepsRegsBut [] s t ∧ KeepsBut [.pc, .index] s t) ∧
    (∃ t, exec (.addI x) s = .next t ∧ t.index.toNat = (s.index.toNat + (s.reg x).toNat) % 65536 ∧ t.pc = s.pc + 2#16 ∧
      KeepsRegsBut [] s t ∧ KeepsBut [.pc, .index] s t)

/-- LD F, VX (R173): I is five times the digit; a value of 16 or more faults and changes nothing else. The fault is the spec's
decision D11 (log 19). -/
def Obligations.LdFPointsAtTheGlyph : Prop :=
  ∀ (x : RegIx) (s : State),
    (∀ p, decodeWord p (byteWord 0xF#4 x 0x29#8) = .instr (.ldF x)) ∧
    ((s.reg x).toNat < 16 →
      ∃ t, exec (.ldF x) s = .next t ∧ t.index.toNat = (s.reg x).toNat * 5 ∧ t.pc = s.pc + 2#16 ∧
        KeepsRegsBut [] s t ∧ KeepsBut [.pc, .index] s t) ∧
    (16 ≤ (s.reg x).toNat →
      ∃ t, exec (.ldF x) s = .next t ∧ t.status = .faulted (.invalidOperand s.pc (s.reg x)) ∧
        KeepsRegsBut [] s t ∧ KeepsBut [.status] s t)

/-- LD B, VX (R175): the three decimal digits at I, I+1, I+2, I unchanged; beyond 0xFFF it faults with nothing written. -/
def Obligations.LdBStoresTheDecimalDigits : Prop :=
  ∀ (x : RegIx) (s : State) (v : Nat), v = (s.reg x).toNat →
    (∀ p, decodeWord p (byteWord 0xF#4 x 0x33#8) = .instr (.ldB x)) ∧
    (s.index.toNat + 2 ≤ 0xFFF →
      ∃ t, exec (.ldB x) s = .next t ∧
        (t.readByte s.index.toNat).toNat = v / 100 ∧
        (t.readByte (s.index.toNat + 1)).toNat = v / 10 % 10 ∧
        (t.readByte (s.index.toNat + 2)).toNat = v % 10 ∧
        Advances s t ∧ KeepsRegsBut [] s t ∧ KeepsBytesBut s.index.toNat 3 s t ∧ KeepsBut [.pc, .memory] s t) ∧
    (0xFFF < s.index.toNat + 2 →
      ∃ t, exec (.ldB x) s = .next t ∧ t.status = .faulted (.memoryFault s.index.toNat 3) ∧
        KeepsRegsBut [] s t ∧ KeepsBut [.status] s t)

/-- LD [I], VX (R176): V0..VX at I, I+1, ..., I advances by x + 1; beyond 0xFFF it faults with nothing changed. -/
def Obligations.LdMemVxDumpsTheRegisters : Prop :=
  ∀ (x : RegIx) (s : State),
    (∀ p, decodeWord p (byteWord 0xF#4 x 0x55#8) = .instr (.ldMemVx x)) ∧
    (s.index.toNat + x.toNat ≤ 0xFFF →
      ∃ t, exec (.ldMemVx x) s = .next t ∧
        (∀ r : RegIx, r.toNat ≤ x.toNat → t.readByte (s.index.toNat + r.toNat) = s.reg r) ∧
        t.index.toNat = (s.index.toNat + x.toNat + 1) % 65536 ∧ t.pc = s.pc + 2#16 ∧ KeepsRegsBut [] s t ∧
        KeepsBytesBut s.index.toNat (x.toNat + 1) s t ∧ KeepsBut [.pc, .index, .memory] s t) ∧
    (0xFFF < s.index.toNat + x.toNat →
      ∃ t, exec (.ldMemVx x) s = .next t ∧ t.status = .faulted (.memoryFault s.index.toNat (x.toNat + 1)) ∧
        KeepsRegsBut [] s t ∧ KeepsBut [.status] s t)

/-- LD VX, [I] (R177): V0..VX from I, I+1, ..., I advances by x + 1; beyond 0xFFF it faults with nothing changed. -/
def Obligations.LdVxMemLoadsTheRegisters : Prop :=
  ∀ (x : RegIx) (s : State),
    (∀ p, decodeWord p (byteWord 0xF#4 x 0x65#8) = .instr (.ldVxMem x)) ∧
    (s.index.toNat + x.toNat ≤ 0xFFF →
      ∃ t, exec (.ldVxMem x) s = .next t ∧
        (∀ r : RegIx, r.toNat ≤ x.toNat → t.reg r = s.readByte (s.index.toNat + r.toNat)) ∧
        (∀ r : RegIx, x.toNat < r.toNat → t.reg r = s.reg r) ∧
        t.index.toNat = (s.index.toNat + x.toNat + 1) % 65536 ∧ Advances s t ∧ KeepsBut [.pc, .index] s t) ∧
    (0xFFF < s.index.toNat + x.toNat →
      ∃ t, exec (.ldVxMem x) s = .next t ∧ t.status = .faulted (.memoryFault s.index.toNat (x.toNat + 1)) ∧
        KeepsRegsBut [] s t ∧ KeepsBut [.status] s t)

/-- The document's property of R177: dumping V0..VX at I, then loading V0..VX from the same address, whatever the registers hold by
then, gives the original values, and I advances by x + 1 both times (R176, R177). -/
def Obligations.LoadingADumpRestoresTheRegisters : Prop :=
  ∀ (x : RegIx) (s t u : State), s.index.toNat + x.toNat ≤ 0xFFF → exec (.ldMemVx x) s = .next t →
    u.index = s.index → (∀ a, u.readByte a = t.readByte a) →
    ∃ w, exec (.ldVxMem x) u = .next w ∧ (∀ r : RegIx, r.toNat ≤ x.toNat → w.reg r = s.reg r) ∧
      w.index = t.index ∧ t.index.toNat = s.index.toNat + (x.toNat + 1)

/-- MemRead and MemWrite (20_memory.md R55, R56): the bytes in order inside 0x000..0xFFF, a fault outside it, an access of no byte
never faults, and a write changes no other byte and nothing else. -/
def Obligations.MemoryPrimitivesAccessTheirRange : Prop :=
  ∀ (s : State) (a n : Nat) (l : List Byte),
    (n = 0 ∨ a + n - 1 ≤ 0xFFF →
      ∃ r, s.memRead a n = some r ∧ r.length = n ∧ ∀ k, k < n → r[k]? = some (s.readByte (a + k))) ∧
    (n > 0 ∧ a + n - 1 > 0xFFF → s.memRead a n = none) ∧
    (l.length = 0 ∨ a + l.length - 1 ≤ 0xFFF →
      ∃ t, s.memWrite a l = some t ∧ (∀ k, k < l.length → l[k]? = some (t.readByte (a + k))) ∧
        KeepsBytesBut a l.length s t ∧ KeepsRegsBut [] s t ∧ KeepsBut [.memory] s t) ∧
    (l.length > 0 ∧ a + l.length - 1 > 0xFFF → s.memWrite a l = none)

/-- A store is seen by every later fetch, with no delay (20_memory.md R51, R65): once LD [I], VX has stored at two successive
addresses, fetching there decodes those two register values as one word, the byte at the lower address in bits 15..8. -/
def Obligations.FetchSeesWhatAnInstructionStored : Prop :=
  ∀ (x k : RegIx) (s t : State) (a : Word) (i : Instr), s.Running → exec (.ldMemVx x) s = .next t → t.Running →
    k.toNat < x.toNat → a.toNat = s.index.toNat + k.toNat → s.fetchAdmitted a.toNat = true →
    decodeWord s.config.sysPolicy (s.reg k ++ s.reg (k + 1#4)) = .instr i →
    (t.setPc a).fetchDecode = .instr i

/-! ## Display (44_display.md) -/

/-- CLS (R192): every pixel 0, DIRTY set, VF unchanged. -/
def Obligations.ClsClearsEveryPixel : Prop :=
  ∀ s : State,
    (∀ p, decodeWord p 0x00E0#16 = .instr .cls) ∧
    ∃ t, exec .cls s = .next t ∧ (∀ y x, pixel t.fb y x = false) ∧ t.dirty = true ∧ Advances s t ∧
      KeepsRegsBut [] s t ∧ KeepsBut [.pc, .screen, .dirty] s t

/-- DRW VX, VY, nibble (R190, R191): every on-screen pixel is flipped exactly where the sprite, started at (VX mod 64, VY mod 32)
and clipped, has a 1 bit; VF is 1 iff some on-screen pixel went from 1 to 0; DIRTY is set; I is kept. Beyond 0xFFF it faults and
changes nothing else. Bit 7 of a row leftmost is the spec's general knowledge (decision D16, log 18); reading all n bytes is its
decision D23 (log 23). -/
def Obligations.DrwFlipsThePixelsUnderTheSprite : Prop :=
  ∀ (x y : RegIx) (n : Nibble) (s : State) (rows : List Byte) (x0 y0 : Nat),
    rows = (List.range n.toNat).map (fun k => s.readByte (s.index.toNat + k)) →
    x0 = (s.reg x).toNat % 64 → y0 = (s.reg y).toNat % 32 →
    (∀ p, decodeWord p (nibbleWord 0xD#4 x y n) = .instr (.drw x y n)) ∧
    (n = 0#4 ∨ s.index.toNat + n.toNat - 1 ≤ 0xFFF →
      ∃ t, exec (.drw x y n) s = .next t ∧
        (∀ yy xx, yy < 32 → xx < 64 → pixel t.fb yy xx = ((pixel s.fb yy xx) ^^ spriteBit rows x0 y0 yy xx)) ∧
        ((∃ yy xx, yy < 32 ∧ xx < 64 ∧ pixel s.fb yy xx = true ∧ pixel t.fb yy xx = false) → t.reg vf = 1#8) ∧
        ((∀ yy xx, yy < 32 → xx < 64 → pixel s.fb yy xx = true → pixel t.fb yy xx = true) → t.reg vf = 0#8) ∧
        t.dirty = true ∧ t.pc = s.pc + 2#16 ∧ KeepsRegsBut [vf] s t ∧ KeepsBut [.pc, .screen, .dirty] s t) ∧
    (n ≠ 0#4 ∧ 0xFFF < s.index.toNat + n.toNat - 1 →
      ∃ t, exec (.drw x y n) s = .next t ∧ t.status = .faulted (.memoryFault s.index.toNat n.toNat) ∧
        KeepsRegsBut [] s t ∧ KeepsBut [.status] s t)

/-- Drawing the same sprite twice at the same place restores the framebuffer, and the second draw reports VF = 1 iff the first one lit
some on-screen pixel. Drawn from the pseudocode of R191: its corner case says that the second draw reports VF = 1 if the sprite has
any on-screen 1 bit, which holds where a pixel under it was unlit before, and not otherwise (log 29). x and y are not F, since VF is
overwritten by the first draw. -/
def Obligations.DrawingTwiceRestoresTheScreen : Prop :=
  ∀ (x y : RegIx) (n : Nibble) (s t : State), x ≠ vf → y ≠ vf → s.Running → exec (.drw x y n) s = .next t → t.Running →
    ∃ u, exec (.drw x y n) t = .next u ∧ u.fb = s.fb ∧
      ((∃ yy xx, yy < 32 ∧ xx < 64 ∧ pixel s.fb yy xx = false ∧ pixel t.fb yy xx = true) → u.reg vf = 1#8) ∧
      ((∀ yy xx, yy < 32 → xx < 64 → pixel t.fb yy xx = true → pixel s.fb yy xx = true) → u.reg vf = 0#8)

/-! ## Input and timer instructions (45_input.md, 46_timers.md) -/

/-- SKP VX and SKNP VX (R210, R211, R213): two more when the key is down, or up; a key index of 16 or more faults and changes nothing
else, the spec's decision D12 (log 19). -/
def Obligations.KeySkipsTestTheKeymap : Prop :=
  ∀ (x : RegIx) (s : State),
    (∀ p, decodeWord p (byteWord 0xE#4 x 0x9E#8) = .instr (.skp x)) ∧
    (∀ p, decodeWord p (byteWord 0xE#4 x 0xA1#8) = .instr (.sknp x)) ∧
    ((s.reg x).toNat < 16 →
      (∃ t, exec (.skp x) s = .next t ∧
        t.pc.toNat = (s.pc.toNat + (if s.keys.getLsbD (s.reg x).toNat then 4 else 2)) % 65536 ∧
        KeepsRegsBut [] s t ∧ KeepsBut [.pc] s t) ∧
      (∃ t, exec (.sknp x) s = .next t ∧
        t.pc.toNat = (s.pc.toNat + (if s.keys.getLsbD (s.reg x).toNat then 2 else 4)) % 65536 ∧
        KeepsRegsBut [] s t ∧ KeepsBut [.pc] s t)) ∧
    (16 ≤ (s.reg x).toNat →
      (∃ t, exec (.skp x) s = .next t ∧ t.status = .faulted (.invalidOperand s.pc (s.reg x)) ∧
        KeepsRegsBut [] s t ∧ KeepsBut [.status] s t) ∧
      (∃ t, exec (.sknp x) s = .next t ∧ t.status = .faulted (.invalidOperand s.pc (s.reg x)) ∧
        KeepsRegsBut [] s t ∧ KeepsBut [.status] s t))

/-- LD VX, K (R212): installs a wait on VX with this frame's keymap captured; VX is not yet written, PC keeps its advance. -/
def Obligations.LdVxKInstallsAKeyWait : Prop :=
  ∀ (x : RegIx) (s : State),
    (∀ p, decodeWord p (byteWord 0xF#4 x 0x0A#8) = .instr (.ldVxK x)) ∧
    ∃ t, exec (.ldVxK x) s = .next t ∧ t.wait = .waiting x s.keys ∧ t.pc = s.pc + 2#16 ∧
      KeepsRegsBut [] s t ∧ KeepsBut [.pc, .wait] s t

/-- LD VX, DT; LD DT, VX; LD ST, VX (R220, R221, R222), as executed, before the frame's tick. -/
def Obligations.TimerInstructionsMoveTheTimers : Prop :=
  ∀ (x : RegIx) (s : State),
    (∀ p, decodeWord p (byteWord 0xF#4 x 0x07#8) = .instr (.ldVxDt x)) ∧
    (∀ p, decodeWord p (byteWord 0xF#4 x 0x15#8) = .instr (.ldDtVx x)) ∧
    (∀ p, decodeWord p (byteWord 0xF#4 x 0x18#8) = .instr (.ldStVx x)) ∧
    (∃ t, exec (.ldVxDt x) s = .next t ∧ t.reg x = s.dt ∧ t.pc = s.pc + 2#16 ∧ KeepsRegsBut [x] s t ∧ KeepsBut [.pc] s t) ∧
    (∃ t, exec (.ldDtVx x) s = .next t ∧ t.dt = s.reg x ∧ t.pc = s.pc + 2#16 ∧
      KeepsRegsBut [] s t ∧ KeepsBut [.pc, .delay] s t) ∧
    (∃ t, exec (.ldStVx x) s = .next t ∧ t.st = s.reg x ∧ t.pc = s.pc + 2#16 ∧
      KeepsRegsBut [] s t ∧ KeepsBut [.pc, .sound] s t)

/-! ## Rules about every instruction -/

/-- VF's writers, and every register's (10_state.md R22): a register an instruction changes is its named destination, or is VF and
the instruction one of the six that write VF as a side effect. That OR, AND and XOR are not among them is decision D8 (log 26). -/
def Obligations.RegistersChangeOnlyAsDestinationOrFlag : Prop :=
  ∀ (i : Instr) (s t : State) (r : RegIx), exec i s = .next t → t.reg r ≠ s.reg r →
    destinations i r ∨ (r = vf ∧ flagWriter i)

/-- The control state is reachable only through the named instructions (10_state.md R24, R25, R30, R35; 20_memory.md R58), and no
instruction changes the keymap, which the frame replaces (10_state.md R31). That none changes the configuration or image_len is
DEDUCED from 00_scope.md R8 and 10_state.md R40 (log 28). -/
def Obligations.ControlStateChangesOnlyByItsInstructions : Prop :=
  ∀ (i : Instr) (s t : State), exec i s = .next t →
    (t.index ≠ s.index → ∃ x nnn, i = .ldI nnn ∨ i = .addI x ∨ i = .ldF x ∨ i = .ldMemVx x ∨ i = .ldVxMem x) ∧
    (t.stack ≠ s.stack → ∃ nnn, i = .call nnn ∨ i = .ret) ∧
    (t.dt ≠ s.dt → ∃ x, i = .ldDtVx x) ∧
    (t.st ≠ s.st → ∃ x, i = .ldStVx x) ∧
    (t.wait ≠ s.wait → ∃ x, i = .ldVxK x) ∧
    (t.mem ≠ s.mem → ∃ x, i = .ldB x ∨ i = .ldMemVx x) ∧
    t.keys = s.keys ∧ t.imageLen = s.imageLen ∧ t.config = s.config

/-- PC (40_frame_cycle.md R105, R106; 41_control_flow.md R120): every instruction advances it by 2 modulo 2^16, the skips by 2 or
4, JP, CALL, RET and JP V0 overwrite it; an instruction that raises a fault leaves everything but STATUS as it was. The modulus is the
spec's decision D4 (log 23). -/
def Obligations.PcMovesOnlyAsTheInstructionSays : Prop :=
  ∀ (i : Instr) (s t : State), s.Running → exec i s = .next t →
    (t.Running → t.pc = s.pc + 2#16 ∨ (t.pc = s.pc + 4#16 ∧ skipFamily i) ∨ overwritesPc i) ∧
    (t.Terminal → ∃ k, t = s.setStatus (.faulted k))

/-- The framebuffer changes only by CLS and DRW, in any frame, and no instruction reads a pixel back into a register except through
the collision flag: over another framebuffer every register but VF after DRW comes out the same (44_display.md R193). -/
def Obligations.ScreenChangesOnlyByClsAndDrw : Prop :=
  (∀ s t : State, step s = .next t → t.fb ≠ s.fb →
    s.wait = .idle ∧ (s.fetchDecode = .instr .cls ∨ ∃ x y n, s.fetchDecode = .instr (.drw x y n))) ∧
  (∀ (i : Instr) (s t : State) (g : Framebuffer), exec i s = .next t →
    ∃ u, exec i { s with fb := g } = .next u ∧ ∀ r, (r ≠ vf ∨ ∀ x y n, i ≠ .drw x y n) → u.reg r = t.reg r)

/-- A running core always has a next frame: no instruction, operand or input stops a step (40_frame_cycle.md R100; 60_exceptions.md
R230: a fault is itself a state). That a fault is a state and not a stop is the model's reading (log 1). -/
def Obligations.EveryRunningStateHasANextFrame : Prop :=
  (∀ (i : Instr) (s : State), ∃ t, exec i s = .next t) ∧ (∀ s : State, s.Running → ∃ t, step s = .next t)

/-! ## The frame (40_frame_cycle.md, 60_exceptions.md) -/

/-- A STEP RUNS THE DECODED INSTRUCTION (R100 to R106): when the poll is a keymap, no wait is pending, the window admits PC and the
bytes at PC decode to i, the step is exec of i, in the state with the frame's keymap and the output ports not yet driven, followed
by the end of the frame (render and tick, unless a fault was raised) and the next inputs. One frame as one step is decision D1. -/
def Obligations.StepRunsTheDecodedInstruction : Prop :=
  ∀ (s u : State) (k : KeyMap) (i : Instr), s.Running → s.frameInput.poll = .keys k → s.wait = .idle →
    s.fetchAdmitted s.pc.toNat = true → s.pc.toNat + 1 ≤ 0xFFF →
    decodeBytes s.config.sysPolicy [s.readByte s.pc.toNat, s.readByte (s.pc.toNat + 1)] = (.instr i, []) →
    exec i (s.clearOutputs.setKeys k) = .next u → step s = .next u.finish.nextInputs

/-- Phase 1 on Stop (R101): STATUS becomes Stopped and the frame does nothing else; no output is driven. Testing Stop first is the
spec's decision D27 (log 20). -/
def Obligations.StopEndsTheRunAndDoesNothingElse : Prop :=
  ∀ s : State, s.Running → s.frameInput.poll = .stop →
    ∃ t, step s = .next t ∧ t.status = .stopped ∧ t.renderOut = none ∧ t.audioOut = none ∧
      KeepsRegsBut [] s t ∧ KeepsBut [.status, .inputs, .outputs] s t

/-- In Stopped and Faulted the core takes no further step (10_state.md R33), and in no other state does it stop. -/
def Obligations.OnlyTerminalStatesTakeNoStep : Prop :=
  ∀ s : State, (s.Terminal ↔ ∀ t, step s ≠ .next t) ∧ (∀ r, step s ≠ .refused r) ∧
    (s.status = .stopped → step s = .fault .stopped) ∧ (∀ k, s.status = .faulted k → step s = .fault (.faulted k))

/-- A fetch the window does not admit (20_memory.md R57, R103): MemoryFault((a, 2)). The two windows are the spec's decision D2
(log 15). -/
def Obligations.FetchOutsideTheWindowFaults : Prop :=
  ∀ (s : State) (k : KeyMap), s.Running → s.frameInput.poll = .keys k → s.wait = .idle →
    ((s.config.fetchWindow = .image ∧ (s.pc.toNat < 0x200 ∨ 0x200 + s.imageLen < s.pc.toNat + 2)) ∨
      (s.config.fetchWindow = .memory ∧ 0xFFF < s.pc.toNat + 1)) →
    ∃ t, step s = .next t ∧ t.status = .faulted (.memoryFault s.pc.toNat 2) ∧
      KeepsRegsBut [] s t ∧ KeepsBut [.status, .keys, .inputs, .outputs] s t

/-- An illegal word (R104, 60_exceptions.md R232): DecodeError with the raw word, big-endian (20_memory.md R51). -/
def Obligations.IllegalWordsRaiseDecodeError : Prop :=
  ∀ (s : State) (k : KeyMap) (w : Word), s.Running → s.frameInput.poll = .keys k → s.wait = .idle →
    s.fetchAdmitted s.pc.toNat = true → s.pc.toNat + 1 ≤ 0xFFF →
    w.toNat = (s.readByte s.pc.toNat).toNat * 256 + (s.readByte (s.pc.toNat + 1)).toNat →
    decodeWord s.config.sysPolicy w = .decodeError w →
    ∃ t, step s = .next t ∧ t.status = .faulted (.decodeError w) ∧
      KeepsRegsBut [] s t ∧ KeepsBut [.status, .keys, .inputs, .outputs] s t

/-- Faults are precise and terminal (60_exceptions.md R230, R112): a frame that ends Faulted leaves everything as it was before the
fetch but STATUS, the frame's keymap and the inputs used up, with neither render nor audio driven, and no step follows. The state after a
fault is the spec's decision D20 (log 22). -/
def Obligations.FaultedFramesCommitNothing : Prop :=
  ∀ (s t : State) (kind : FaultKind), step s = .next t → t.status = .faulted kind →
    (∃ k, s.frameInput.poll = .keys k ∧ t.keys = k) ∧ t.renderOut = none ∧ t.audioOut = none ∧ t.v = s.v ∧ t.mem = s.mem ∧
      KeepsBut [.status, .keys, .inputs, .outputs] s t ∧ step t = .fault (.faulted kind)

/-- Key-wait resolution (R107, R109): a frame that begins Waiting executes no instruction. With no captured key released it stays
Waiting and unions the keys now down; otherwise a released key's index is written to the target and the wait ends. The choice among
several is the draw's (decision D13, log 9). -/
def Obligations.AWaitFrameUpdatesTheWait : Prop :=
  ∀ (s : State) (k captured : KeyMap) (r : RegIx), s.Running → s.frameInput.poll = .keys k → s.wait = .waiting r captured →
    ∃ t, step s = .next t ∧ t.Running ∧ t.keys = k ∧
      KeepsBut [.keys, .wait, .dirty, .delay, .sound, .inputs, .outputs] s t ∧
      ((∀ j, j < 16 → ¬(captured.getLsbD j = true ∧ k.getLsbD j = false)) →
        t.wait = .waiting r (captured ||| k) ∧ KeepsRegsBut [] s t) ∧
      ((∃ j, j < 16 ∧ captured.getLsbD j = true ∧ k.getLsbD j = false) →
        t.wait = .idle ∧ KeepsRegsBut [r] s t ∧
        ∃ j, j < 16 ∧ captured.getLsbD j = true ∧ k.getLsbD j = false ∧ (t.reg r).toNat = j)

/-- Every released key is the answer of some draw (decision D13, log 9). -/
def Obligations.EveryReleasedKeyCanBeChosen : Prop :=
  ∀ (s : State) (k captured : KeyMap) (r : RegIx) (j : Nibble), s.Running → s.frameInput.poll = .keys k →
    s.wait = .waiting r captured → captured.getLsbD j.toNat = true → k.getLsbD j.toNat = false → s.frameInput.kchoice = j →
    ∃ t, step s = .next t ∧ t.wait = .idle ∧ (t.reg r).toNat = j.toNat

/-- A key pressed and held does not by itself end a wait (R108): over any number of frames in which no captured or polled key goes
up, the wait stays, and no instruction executes. -/
def Obligations.HeldKeysNeverEndAWait : Prop :=
  ∀ (f : Nat → State) (n : Nat) (r : RegIx) (captured : KeyMap) (k : Nat → KeyMap), RunOf f n →
    (f 0).wait = .waiting r captured → (∀ j, j < n → (f j).frameInput.poll = .keys (k j)) →
    (0 < n → captured &&& ~~~(k 0) = 0#16) → (∀ j, j + 1 < n → k j &&& ~~~(k (j + 1)) = 0#16) →
    (∃ c, (f n).wait = .waiting r c) ∧ (f n).pc = (f 0).pc ∧ KeepsRegsBut [] (f 0) (f n)

/-- Phase 3 (R110): in a frame that completes, the render port is driven, with a copy of FB as phase 2 left it, iff DIRTY is 1, and
DIRTY is 0 afterwards. Clearing it right after the render is the spec's decision D25 (log 21). -/
def Obligations.RenderFollowsDirty : Prop :=
  ∀ (s u : State) (k : KeyMap), s.Running → s.frameInput.poll = .keys k →
    phaseTwo s.frameInput.kchoice (s.clearOutputs.setKeys k) = .next u → u.Running →
    ∃ t, step s = .next t ∧ t.fb = u.fb ∧ t.dirty = false ∧
      (u.dirty = true → t.renderOut = some u.fb) ∧ (u.dirty = false → t.renderOut = none)

/-- A render follows in the same frame every CLS and every DRW, and no other frame renders (10_state.md R29, R110; decision D25,
log 21). -/
def Obligations.ExactlyClsAndDrwFramesRender : Prop :=
  ∀ s t : State, s.ScreenOk → step s = .next t → t.Running →
    (t.renderOut ≠ none ↔
      s.wait = .idle ∧ (s.fetchDecode = .instr .cls ∨ ∃ x y n, s.fetchDecode = .instr (.drw x y n)))

/-- The tick (60_exceptions.md R245): every frame that completes, a wait frame too, takes each timer down by exactly one from what
phase 2 left in it, leaves a zero at zero, and reports exactly the sound timer's transition to zero. -/
def Obligations.EveryCompletedFrameTicksOnce : Prop :=
  ∀ (s u : State) (k : KeyMap), s.Running → s.frameInput.poll = .keys k →
    phaseTwo s.frameInput.kchoice (s.clearOutputs.setKeys k) = .next u → u.Running →
    ∃ t, step s = .next t ∧ t.dt.toNat = u.dt.toNat - 1 ∧ t.st.toNat = u.st.toNat - 1 ∧
      (zeroTransition u.st t.st = true ↔ u.st.toNat ≠ 0 ∧ t.st.toNat = 0)

/-- The audio port (60_exceptions.md R246): Stop exactly when the sound timer went from non-zero to zero in this tick, Play when it is
still not zero, None otherwise. The mapping is the spec's decision D19 (log 21). -/
def Obligations.AudioFollowsTheSoundTimer : Prop :=
  ∀ (s u : State) (k : KeyMap), s.Running → s.frameInput.poll = .keys k →
    phaseTwo s.frameInput.kchoice (s.clearOutputs.setKeys k) = .next u → u.Running →
    ∃ t, step s = .next t ∧
      (u.st.toNat = 1 → t.audioOut = some .stop) ∧ (1 < u.st.toNat → t.audioOut = some .play) ∧
      (u.st.toNat = 0 → t.audioOut = some .none)

/-- Delay is measured in frames (46_timers.md R223): over n completed frames none of which executes LD DT, VX, DT falls by n, and
stays at zero from there. -/
def Obligations.TheDelayTimerCountsFrames : Prop :=
  ∀ (f : Nat → State) (n : Nat), RunOf f n → (∀ j, j ≤ n → (f j).Running) →
    (∀ j, j < n → ∀ x, (f j).wait = .idle → (f j).fetchDecode ≠ .instr (.ldDtVx x)) →
    (f n).dt.toNat = (f 0).dt.toNat - n

/-! ## Invariants and reset -/

/-- Every step keeps the memory's canonical form: strictly rising addresses inside 0x000..0xFFF, no entry that says what an unlisted
byte reads as (20_memory.md R50, R54, R56; the form is the model's, log 4). -/
def Obligations.EveryStepKeepsTheMemoryCanonical : Prop :=
  ∀ s t : State, s.MemoryOk → step s = .next t → t.MemoryOk

/-- Every step keeps the depth of the stack within STACK_LIMIT (10_state.md R25, R35; the limit is the spec's decision D9, log 14). -/
def Obligations.EveryStepKeepsTheStackBounded : Prop :=
  ∀ s t : State, s.StackOk → step s = .next t → t.StackOk

/-- Every step from a state with nothing to be rendered leaves nothing to be rendered, and every step keeps the configuration and the
image's length (10_state.md R29, R42; R110). That DIRTY is cleared in the frame that set it is the spec's decision D25 (log 21). That
no step changes the configuration or image_len is DEDUCED from 00_scope.md R8 and 10_state.md R40 (log 28). -/
def Obligations.EveryStepKeepsTheFrameInvariants : Prop :=
  ∀ s t : State, step s = .next t → (s.ScreenOk → t.ScreenOk) ∧ t.config = s.config ∧ t.imageLen = s.imageLen

/-- The machine right after reset, and after any image is loaded, meets every invariant (10_state.md R37, R40). SP = 0 and DIRTY = 0
at reset are the spec's decision D18 (log 3); that an image has at most 0xE00 bytes is R40's bound, a longer one being refused by
decision D24 (log 24); the canonical form of memory is the model's (log 4), and so is a reset with no image loaded (log 12). -/
def Obligations.ResetAndLoadMeetTheInvariants : Prop :=
  (State.reset.MemoryOk ∧ State.reset.StackOk ∧ State.reset.ImageOk ∧ State.reset.ScreenOk) ∧
  (∀ (c : Config) (image : List Byte) (ins : List FrameInput) (s : State), State.load c image ins = some s →
    s.MemoryOk ∧ s.StackOk ∧ s.ImageOk ∧ s.ScreenOk)

/-- What reset leaves (10_state.md R37): PC at 0x200, FB all 0, the font at 0x000..0x04F, whose 80 bytes are PRESUMED (decision D17,
log 5). By the spec's decision D18, memory from 0x050 on is INIT_FILL, 0 by default (log 4, unsafe), and the registers, the timers and
DIRTY are 0, the stack is empty, no key is down, there is no wait and STATUS is Running (log 3, unsafe). No image is loaded, the
model's choice (log 12). -/
def Obligations.ResetLeavesTheStatedValues : Prop :=
  State.reset.pc = 0x200#16 ∧ (∀ y x, pixel State.reset.fb y x = false) ∧
  (∀ a (h : a < 80), State.reset.readByte a = standardFont[a]) ∧ (∀ a, 80 ≤ a → State.reset.readByte a = 0#8) ∧
  (∀ r, State.reset.reg r = 0#8) ∧ State.reset.index = 0#16 ∧ State.reset.sp = 0 ∧ State.reset.dirty = false ∧
  State.reset.dt = 0#8 ∧ State.reset.st = 0#8 ∧ State.reset.keys = 0#16 ∧ State.reset.wait = .idle ∧ State.reset.Running

/-- The load port (10_state.md R40, 70_reset_and_hazards.md R270): the image verbatim from 0x200 on, FONT and INIT_FILL around it; an
image of more than 0xE00 bytes is refused (the spec's decision D24, log 24). -/
def Obligations.LoadPlacesTheImageVerbatim : Prop :=
  ∀ (c : Config) (image : List Byte) (ins : List FrameInput),
    (image.length > 0xE00 → State.load c image ins = none) ∧
    (image.length ≤ 0xE00 → ∃ s, State.load c image ins = some s ∧ s.pc = 0x200#16 ∧ s.Running ∧ s.config = c ∧
      s.imageLen = image.length ∧
      (∀ k, k < image.length → image[k]? = some (s.readByte (0x200 + k))) ∧
      (∀ a (h : a < 80), s.readByte a = c.font[a]) ∧
      (∀ a, 80 ≤ a → a < 0x200 ∨ 0x200 + image.length ≤ a → s.readByte a = c.initFill))
end

