-- ==== Sys2Proof/Laws/State.lean ====
section
/-!
SUPPORT. For each named update of the state, what every field and every accessor of the state is after it. All hold by rfl.
-/
namespace Sys2Proof.Machine

variable (s : State)

/-! #### setReg -/

@[simp] theorem State.setReg_v (x : RegIx) (c : Byte) : (s.setReg x c).v = s.v.set x.toNat c := rfl
@[simp] theorem State.setReg_pc (x : RegIx) (c : Byte) : (s.setReg x c).pc = s.pc := rfl
@[simp] theorem State.setReg_index (x : RegIx) (c : Byte) : (s.setReg x c).index = s.index := rfl
@[simp] theorem State.setReg_stack (x : RegIx) (c : Byte) : (s.setReg x c).stack = s.stack := rfl
@[simp] theorem State.setReg_mem (x : RegIx) (c : Byte) : (s.setReg x c).mem = s.mem := rfl
@[simp] theorem State.setReg_fb (x : RegIx) (c : Byte) : (s.setReg x c).fb = s.fb := rfl
@[simp] theorem State.setReg_dirty (x : RegIx) (c : Byte) : (s.setReg x c).dirty = s.dirty := rfl
@[simp] theorem State.setReg_dt (x : RegIx) (c : Byte) : (s.setReg x c).dt = s.dt := rfl
@[simp] theorem State.setReg_st (x : RegIx) (c : Byte) : (s.setReg x c).st = s.st := rfl
@[simp] theorem State.setReg_keys (x : RegIx) (c : Byte) : (s.setReg x c).keys = s.keys := rfl
@[simp] theorem State.setReg_wait (x : RegIx) (c : Byte) : (s.setReg x c).wait = s.wait := rfl
@[simp] theorem State.setReg_status (x : RegIx) (c : Byte) : (s.setReg x c).status = s.status := rfl
@[simp] theorem State.setReg_imageLen (x : RegIx) (c : Byte) : (s.setReg x c).imageLen = s.imageLen := rfl
@[simp] theorem State.setReg_config (x : RegIx) (c : Byte) : (s.setReg x c).config = s.config := rfl
@[simp] theorem State.setReg_inputs (x : RegIx) (c : Byte) : (s.setReg x c).inputs = s.inputs := rfl
@[simp] theorem State.setReg_frame (x : RegIx) (c : Byte) : (s.setReg x c).frame = s.frame := rfl
@[simp] theorem State.setReg_renderOut (x : RegIx) (c : Byte) : (s.setReg x c).renderOut = s.renderOut := rfl
@[simp] theorem State.setReg_audioOut (x : RegIx) (c : Byte) : (s.setReg x c).audioOut = s.audioOut := rfl
@[simp] theorem State.setReg_sp (x : RegIx) (c : Byte) : (s.setReg x c).sp = s.sp := rfl
@[simp] theorem State.setReg_readByte (x : RegIx) (c : Byte) (b : Nat) : (s.setReg x c).readByte b = s.readByte b := rfl
@[simp] theorem State.setReg_keyDown (x : RegIx) (c : Byte) (k : Nat) : (s.setReg x c).keyDown k = s.keyDown k := rfl
@[simp] theorem State.setReg_frameInput (x : RegIx) (c : Byte) : (s.setReg x c).frameInput = s.frameInput := rfl
@[simp] theorem State.setReg_stackFull (x : RegIx) (c : Byte) : (s.setReg x c).stackFull = s.stackFull := rfl

/-! #### setPc -/

@[simp] theorem State.setPc_v (a : Word) : (s.setPc a).v = s.v := rfl
@[simp] theorem State.setPc_pc (a : Word) : (s.setPc a).pc = a := rfl
@[simp] theorem State.setPc_index (a : Word) : (s.setPc a).index = s.index := rfl
@[simp] theorem State.setPc_stack (a : Word) : (s.setPc a).stack = s.stack := rfl
@[simp] theorem State.setPc_mem (a : Word) : (s.setPc a).mem = s.mem := rfl
@[simp] theorem State.setPc_fb (a : Word) : (s.setPc a).fb = s.fb := rfl
@[simp] theorem State.setPc_dirty (a : Word) : (s.setPc a).dirty = s.dirty := rfl
@[simp] theorem State.setPc_dt (a : Word) : (s.setPc a).dt = s.dt := rfl
@[simp] theorem State.setPc_st (a : Word) : (s.setPc a).st = s.st := rfl
@[simp] theorem State.setPc_keys (a : Word) : (s.setPc a).keys = s.keys := rfl
@[simp] theorem State.setPc_wait (a : Word) : (s.setPc a).wait = s.wait := rfl
@[simp] theorem State.setPc_status (a : Word) : (s.setPc a).status = s.status := rfl
@[simp] theorem State.setPc_imageLen (a : Word) : (s.setPc a).imageLen = s.imageLen := rfl
@[simp] theorem State.setPc_config (a : Word) : (s.setPc a).config = s.config := rfl
@[simp] theorem State.setPc_inputs (a : Word) : (s.setPc a).inputs = s.inputs := rfl
@[simp] theorem State.setPc_frame (a : Word) : (s.setPc a).frame = s.frame := rfl
@[simp] theorem State.setPc_renderOut (a : Word) : (s.setPc a).renderOut = s.renderOut := rfl
@[simp] theorem State.setPc_audioOut (a : Word) : (s.setPc a).audioOut = s.audioOut := rfl
@[simp] theorem State.setPc_reg (a : Word) (r : RegIx) : (s.setPc a).reg r = s.reg r := rfl
@[simp] theorem State.setPc_sp (a : Word) : (s.setPc a).sp = s.sp := rfl
@[simp] theorem State.setPc_readByte (a : Word) (b : Nat) : (s.setPc a).readByte b = s.readByte b := rfl
@[simp] theorem State.setPc_keyDown (a : Word) (k : Nat) : (s.setPc a).keyDown k = s.keyDown k := rfl
@[simp] theorem State.setPc_frameInput (a : Word) : (s.setPc a).frameInput = s.frameInput := rfl
@[simp] theorem State.setPc_stackFull (a : Word) : (s.setPc a).stackFull = s.stackFull := rfl

/-! #### setIndex -/

@[simp] theorem State.setIndex_v (a : Word) : (s.setIndex a).v = s.v := rfl
@[simp] theorem State.setIndex_pc (a : Word) : (s.setIndex a).pc = s.pc := rfl
@[simp] theorem State.setIndex_index (a : Word) : (s.setIndex a).index = a := rfl
@[simp] theorem State.setIndex_stack (a : Word) : (s.setIndex a).stack = s.stack := rfl
@[simp] theorem State.setIndex_mem (a : Word) : (s.setIndex a).mem = s.mem := rfl
@[simp] theorem State.setIndex_fb (a : Word) : (s.setIndex a).fb = s.fb := rfl
@[simp] theorem State.setIndex_dirty (a : Word) : (s.setIndex a).dirty = s.dirty := rfl
@[simp] theorem State.setIndex_dt (a : Word) : (s.setIndex a).dt = s.dt := rfl
@[simp] theorem State.setIndex_st (a : Word) : (s.setIndex a).st = s.st := rfl
@[simp] theorem State.setIndex_keys (a : Word) : (s.setIndex a).keys = s.keys := rfl
@[simp] theorem State.setIndex_wait (a : Word) : (s.setIndex a).wait = s.wait := rfl
@[simp] theorem State.setIndex_status (a : Word) : (s.setIndex a).status = s.status := rfl
@[simp] theorem State.setIndex_imageLen (a : Word) : (s.setIndex a).imageLen = s.imageLen := rfl
@[simp] theorem State.setIndex_config (a : Word) : (s.setIndex a).config = s.config := rfl
@[simp] theorem State.setIndex_inputs (a : Word) : (s.setIndex a).inputs = s.inputs := rfl
@[simp] theorem State.setIndex_frame (a : Word) : (s.setIndex a).frame = s.frame := rfl
@[simp] theorem State.setIndex_renderOut (a : Word) : (s.setIndex a).renderOut = s.renderOut := rfl
@[simp] theorem State.setIndex_audioOut (a : Word) : (s.setIndex a).audioOut = s.audioOut := rfl
@[simp] theorem State.setIndex_reg (a : Word) (r : RegIx) : (s.setIndex a).reg r = s.reg r := rfl
@[simp] theorem State.setIndex_sp (a : Word) : (s.setIndex a).sp = s.sp := rfl
@[simp] theorem State.setIndex_readByte (a : Word) (b : Nat) : (s.setIndex a).readByte b = s.readByte b := rfl
@[simp] theorem State.setIndex_keyDown (a : Word) (k : Nat) : (s.setIndex a).keyDown k = s.keyDown k := rfl
@[simp] theorem State.setIndex_frameInput (a : Word) : (s.setIndex a).frameInput = s.frameInput := rfl
@[simp] theorem State.setIndex_stackFull (a : Word) : (s.setIndex a).stackFull = s.stackFull := rfl

/-! #### setDt -/

@[simp] theorem State.setDt_v (c : Byte) : (s.setDt c).v = s.v := rfl
@[simp] theorem State.setDt_pc (c : Byte) : (s.setDt c).pc = s.pc := rfl
@[simp] theorem State.setDt_index (c : Byte) : (s.setDt c).index = s.index := rfl
@[simp] theorem State.setDt_stack (c : Byte) : (s.setDt c).stack = s.stack := rfl
@[simp] theorem State.setDt_mem (c : Byte) : (s.setDt c).mem = s.mem := rfl
@[simp] theorem State.setDt_fb (c : Byte) : (s.setDt c).fb = s.fb := rfl
@[simp] theorem State.setDt_dirty (c : Byte) : (s.setDt c).dirty = s.dirty := rfl
@[simp] theorem State.setDt_dt (c : Byte) : (s.setDt c).dt = c := rfl
@[simp] theorem State.setDt_st (c : Byte) : (s.setDt c).st = s.st := rfl
@[simp] theorem State.setDt_keys (c : Byte) : (s.setDt c).keys = s.keys := rfl
@[simp] theorem State.setDt_wait (c : Byte) : (s.setDt c).wait = s.wait := rfl
@[simp] theorem State.setDt_status (c : Byte) : (s.setDt c).status = s.status := rfl
@[simp] theorem State.setDt_imageLen (c : Byte) : (s.setDt c).imageLen = s.imageLen := rfl
@[simp] theorem State.setDt_config (c : Byte) : (s.setDt c).config = s.config := rfl
@[simp] theorem State.setDt_inputs (c : Byte) : (s.setDt c).inputs = s.inputs := rfl
@[simp] theorem State.setDt_frame (c : Byte) : (s.setDt c).frame = s.frame := rfl
@[simp] theorem State.setDt_renderOut (c : Byte) : (s.setDt c).renderOut = s.renderOut := rfl
@[simp] theorem State.setDt_audioOut (c : Byte) : (s.setDt c).audioOut = s.audioOut := rfl
@[simp] theorem State.setDt_reg (c : Byte) (r : RegIx) : (s.setDt c).reg r = s.reg r := rfl
@[simp] theorem State.setDt_sp (c : Byte) : (s.setDt c).sp = s.sp := rfl
@[simp] theorem State.setDt_readByte (c : Byte) (b : Nat) : (s.setDt c).readByte b = s.readByte b := rfl
@[simp] theorem State.setDt_keyDown (c : Byte) (k : Nat) : (s.setDt c).keyDown k = s.keyDown k := rfl
@[simp] theorem State.setDt_frameInput (c : Byte) : (s.setDt c).frameInput = s.frameInput := rfl
@[simp] theorem State.setDt_stackFull (c : Byte) : (s.setDt c).stackFull = s.stackFull := rfl

/-! #### setSt -/

@[simp] theorem State.setSt_v (c : Byte) : (s.setSt c).v = s.v := rfl
@[simp] theorem State.setSt_pc (c : Byte) : (s.setSt c).pc = s.pc := rfl
@[simp] theorem State.setSt_index (c : Byte) : (s.setSt c).index = s.index := rfl
@[simp] theorem State.setSt_stack (c : Byte) : (s.setSt c).stack = s.stack := rfl
@[simp] theorem State.setSt_mem (c : Byte) : (s.setSt c).mem = s.mem := rfl
@[simp] theorem State.setSt_fb (c : Byte) : (s.setSt c).fb = s.fb := rfl
@[simp] theorem State.setSt_dirty (c : Byte) : (s.setSt c).dirty = s.dirty := rfl
@[simp] theorem State.setSt_dt (c : Byte) : (s.setSt c).dt = s.dt := rfl
@[simp] theorem State.setSt_st (c : Byte) : (s.setSt c).st = c := rfl
@[simp] theorem State.setSt_keys (c : Byte) : (s.setSt c).keys = s.keys := rfl
@[simp] theorem State.setSt_wait (c : Byte) : (s.setSt c).wait = s.wait := rfl
@[simp] theorem State.setSt_status (c : Byte) : (s.setSt c).status = s.status := rfl
@[simp] theorem State.setSt_imageLen (c : Byte) : (s.setSt c).imageLen = s.imageLen := rfl
@[simp] theorem State.setSt_config (c : Byte) : (s.setSt c).config = s.config := rfl
@[simp] theorem State.setSt_inputs (c : Byte) : (s.setSt c).inputs = s.inputs := rfl
@[simp] theorem State.setSt_frame (c : Byte) : (s.setSt c).frame = s.frame := rfl
@[simp] theorem State.setSt_renderOut (c : Byte) : (s.setSt c).renderOut = s.renderOut := rfl
@[simp] theorem State.setSt_audioOut (c : Byte) : (s.setSt c).audioOut = s.audioOut := rfl
@[simp] theorem State.setSt_reg (c : Byte) (r : RegIx) : (s.setSt c).reg r = s.reg r := rfl
@[simp] theorem State.setSt_sp (c : Byte) : (s.setSt c).sp = s.sp := rfl
@[simp] theorem State.setSt_readByte (c : Byte) (b : Nat) : (s.setSt c).readByte b = s.readByte b := rfl
@[simp] theorem State.setSt_keyDown (c : Byte) (k : Nat) : (s.setSt c).keyDown k = s.keyDown k := rfl
@[simp] theorem State.setSt_frameInput (c : Byte) : (s.setSt c).frameInput = s.frameInput := rfl
@[simp] theorem State.setSt_stackFull (c : Byte) : (s.setSt c).stackFull = s.stackFull := rfl

/-! #### setWait -/

@[simp] theorem State.setWait_v (w : KeyWait) : (s.setWait w).v = s.v := rfl
@[simp] theorem State.setWait_pc (w : KeyWait) : (s.setWait w).pc = s.pc := rfl
@[simp] theorem State.setWait_index (w : KeyWait) : (s.setWait w).index = s.index := rfl
@[simp] theorem State.setWait_stack (w : KeyWait) : (s.setWait w).stack = s.stack := rfl
@[simp] theorem State.setWait_mem (w : KeyWait) : (s.setWait w).mem = s.mem := rfl
@[simp] theorem State.setWait_fb (w : KeyWait) : (s.setWait w).fb = s.fb := rfl
@[simp] theorem State.setWait_dirty (w : KeyWait) : (s.setWait w).dirty = s.dirty := rfl
@[simp] theorem State.setWait_dt (w : KeyWait) : (s.setWait w).dt = s.dt := rfl
@[simp] theorem State.setWait_st (w : KeyWait) : (s.setWait w).st = s.st := rfl
@[simp] theorem State.setWait_keys (w : KeyWait) : (s.setWait w).keys = s.keys := rfl
@[simp] theorem State.setWait_wait (w : KeyWait) : (s.setWait w).wait = w := rfl
@[simp] theorem State.setWait_status (w : KeyWait) : (s.setWait w).status = s.status := rfl
@[simp] theorem State.setWait_imageLen (w : KeyWait) : (s.setWait w).imageLen = s.imageLen := rfl
@[simp] theorem State.setWait_config (w : KeyWait) : (s.setWait w).config = s.config := rfl
@[simp] theorem State.setWait_inputs (w : KeyWait) : (s.setWait w).inputs = s.inputs := rfl
@[simp] theorem State.setWait_frame (w : KeyWait) : (s.setWait w).frame = s.frame := rfl
@[simp] theorem State.setWait_renderOut (w : KeyWait) : (s.setWait w).renderOut = s.renderOut := rfl
@[simp] theorem State.setWait_audioOut (w : KeyWait) : (s.setWait w).audioOut = s.audioOut := rfl
@[simp] theorem State.setWait_reg (w : KeyWait) (r : RegIx) : (s.setWait w).reg r = s.reg r := rfl
@[simp] theorem State.setWait_sp (w : KeyWait) : (s.setWait w).sp = s.sp := rfl
@[simp] theorem State.setWait_readByte (w : KeyWait) (b : Nat) : (s.setWait w).readByte b = s.readByte b := rfl
@[simp] theorem State.setWait_keyDown (w : KeyWait) (k : Nat) : (s.setWait w).keyDown k = s.keyDown k := rfl
@[simp] theorem State.setWait_frameInput (w : KeyWait) : (s.setWait w).frameInput = s.frameInput := rfl
@[simp] theorem State.setWait_stackFull (w : KeyWait) : (s.setWait w).stackFull = s.stackFull := rfl

/-! #### setKeys -/

@[simp] theorem State.setKeys_v (m : KeyMap) : (s.setKeys m).v = s.v := rfl
@[simp] theorem State.setKeys_pc (m : KeyMap) : (s.setKeys m).pc = s.pc := rfl
@[simp] theorem State.setKeys_index (m : KeyMap) : (s.setKeys m).index = s.index := rfl
@[simp] theorem State.setKeys_stack (m : KeyMap) : (s.setKeys m).stack = s.stack := rfl
@[simp] theorem State.setKeys_mem (m : KeyMap) : (s.setKeys m).mem = s.mem := rfl
@[simp] theorem State.setKeys_fb (m : KeyMap) : (s.setKeys m).fb = s.fb := rfl
@[simp] theorem State.setKeys_dirty (m : KeyMap) : (s.setKeys m).dirty = s.dirty := rfl
@[simp] theorem State.setKeys_dt (m : KeyMap) : (s.setKeys m).dt = s.dt := rfl
@[simp] theorem State.setKeys_st (m : KeyMap) : (s.setKeys m).st = s.st := rfl
@[simp] theorem State.setKeys_keys (m : KeyMap) : (s.setKeys m).keys = m := rfl
@[simp] theorem State.setKeys_wait (m : KeyMap) : (s.setKeys m).wait = s.wait := rfl
@[simp] theorem State.setKeys_status (m : KeyMap) : (s.setKeys m).status = s.status := rfl
@[simp] theorem State.setKeys_imageLen (m : KeyMap) : (s.setKeys m).imageLen = s.imageLen := rfl
@[simp] theorem State.setKeys_config (m : KeyMap) : (s.setKeys m).config = s.config := rfl
@[simp] theorem State.setKeys_inputs (m : KeyMap) : (s.setKeys m).inputs = s.inputs := rfl
@[simp] theorem State.setKeys_frame (m : KeyMap) : (s.setKeys m).frame = s.frame := rfl
@[simp] theorem State.setKeys_renderOut (m : KeyMap) : (s.setKeys m).renderOut = s.renderOut := rfl
@[simp] theorem State.setKeys_audioOut (m : KeyMap) : (s.setKeys m).audioOut = s.audioOut := rfl
@[simp] theorem State.setKeys_reg (m : KeyMap) (r : RegIx) : (s.setKeys m).reg r = s.reg r := rfl
@[simp] theorem State.setKeys_sp (m : KeyMap) : (s.setKeys m).sp = s.sp := rfl
@[simp] theorem State.setKeys_readByte (m : KeyMap) (b : Nat) : (s.setKeys m).readByte b = s.readByte b := rfl
@[simp] theorem State.setKeys_frameInput (m : KeyMap) : (s.setKeys m).frameInput = s.frameInput := rfl
@[simp] theorem State.setKeys_stackFull (m : KeyMap) : (s.setKeys m).stackFull = s.stackFull := rfl

/-! #### setStatus -/

@[simp] theorem State.setStatus_v (q : RunStatus) : (s.setStatus q).v = s.v := rfl
@[simp] theorem State.setStatus_pc (q : RunStatus) : (s.setStatus q).pc = s.pc := rfl
@[simp] theorem State.setStatus_index (q : RunStatus) : (s.setStatus q).index = s.index := rfl
@[simp] theorem State.setStatus_stack (q : RunStatus) : (s.setStatus q).stack = s.stack := rfl
@[simp] theorem State.setStatus_mem (q : RunStatus) : (s.setStatus q).mem = s.mem := rfl
@[simp] theorem State.setStatus_fb (q : RunStatus) : (s.setStatus q).fb = s.fb := rfl
@[simp] theorem State.setStatus_dirty (q : RunStatus) : (s.setStatus q).dirty = s.dirty := rfl
@[simp] theorem State.setStatus_dt (q : RunStatus) : (s.setStatus q).dt = s.dt := rfl
@[simp] theorem State.setStatus_st (q : RunStatus) : (s.setStatus q).st = s.st := rfl
@[simp] theorem State.setStatus_keys (q : RunStatus) : (s.setStatus q).keys = s.keys := rfl
@[simp] theorem State.setStatus_wait (q : RunStatus) : (s.setStatus q).wait = s.wait := rfl
@[simp] theorem State.setStatus_status (q : RunStatus) : (s.setStatus q).status = q := rfl
@[simp] theorem State.setStatus_imageLen (q : RunStatus) : (s.setStatus q).imageLen = s.imageLen := rfl
@[simp] theorem State.setStatus_config (q : RunStatus) : (s.setStatus q).config = s.config := rfl
@[simp] theorem State.setStatus_inputs (q : RunStatus) : (s.setStatus q).inputs = s.inputs := rfl
@[simp] theorem State.setStatus_frame (q : RunStatus) : (s.setStatus q).frame = s.frame := rfl
@[simp] theorem State.setStatus_renderOut (q : RunStatus) : (s.setStatus q).renderOut = s.renderOut := rfl
@[simp] theorem State.setStatus_audioOut (q : RunStatus) : (s.setStatus q).audioOut = s.audioOut := rfl
@[simp] theorem State.setStatus_reg (q : RunStatus) (r : RegIx) : (s.setStatus q).reg r = s.reg r := rfl
@[simp] theorem State.setStatus_sp (q : RunStatus) : (s.setStatus q).sp = s.sp := rfl
@[simp] theorem State.setStatus_readByte (q : RunStatus) (b : Nat) : (s.setStatus q).readByte b = s.readByte b := rfl
@[simp] theorem State.setStatus_keyDown (q : RunStatus) (k : Nat) : (s.setStatus q).keyDown k = s.keyDown k := rfl
@[simp] theorem State.setStatus_frameInput (q : RunStatus) : (s.setStatus q).frameInput = s.frameInput := rfl
@[simp] theorem State.setStatus_stackFull (q : RunStatus) : (s.setStatus q).stackFull = s.stackFull := rfl

/-! #### setStack -/

@[simp] theorem State.setStack_v (l : List Word) : (s.setStack l).v = s.v := rfl
@[simp] theorem State.setStack_pc (l : List Word) : (s.setStack l).pc = s.pc := rfl
@[simp] theorem State.setStack_index (l : List Word) : (s.setStack l).index = s.index := rfl
@[simp] theorem State.setStack_stack (l : List Word) : (s.setStack l).stack = l := rfl
@[simp] theorem State.setStack_mem (l : List Word) : (s.setStack l).mem = s.mem := rfl
@[simp] theorem State.setStack_fb (l : List Word) : (s.setStack l).fb = s.fb := rfl
@[simp] theorem State.setStack_dirty (l : List Word) : (s.setStack l).dirty = s.dirty := rfl
@[simp] theorem State.setStack_dt (l : List Word) : (s.setStack l).dt = s.dt := rfl
@[simp] theorem State.setStack_st (l : List Word) : (s.setStack l).st = s.st := rfl
@[simp] theorem State.setStack_keys (l : List Word) : (s.setStack l).keys = s.keys := rfl
@[simp] theorem State.setStack_wait (l : List Word) : (s.setStack l).wait = s.wait := rfl
@[simp] theorem State.setStack_status (l : List Word) : (s.setStack l).status = s.status := rfl
@[simp] theorem State.setStack_imageLen (l : List Word) : (s.setStack l).imageLen = s.imageLen := rfl
@[simp] theorem State.setStack_config (l : List Word) : (s.setStack l).config = s.config := rfl
@[simp] theorem State.setStack_inputs (l : List Word) : (s.setStack l).inputs = s.inputs := rfl
@[simp] theorem State.setStack_frame (l : List Word) : (s.setStack l).frame = s.frame := rfl
@[simp] theorem State.setStack_renderOut (l : List Word) : (s.setStack l).renderOut = s.renderOut := rfl
@[simp] theorem State.setStack_audioOut (l : List Word) : (s.setStack l).audioOut = s.audioOut := rfl
@[simp] theorem State.setStack_reg (l : List Word) (r : RegIx) : (s.setStack l).reg r = s.reg r := rfl
@[simp] theorem State.setStack_readByte (l : List Word) (b : Nat) : (s.setStack l).readByte b = s.readByte b := rfl
@[simp] theorem State.setStack_keyDown (l : List Word) (k : Nat) : (s.setStack l).keyDown k = s.keyDown k := rfl
@[simp] theorem State.setStack_frameInput (l : List Word) : (s.setStack l).frameInput = s.frameInput := rfl

/-! #### setMem -/

@[simp] theorem State.setMem_v (m : Memory) : (s.setMem m).v = s.v := rfl
@[simp] theorem State.setMem_pc (m : Memory) : (s.setMem m).pc = s.pc := rfl
@[simp] theorem State.setMem_index (m : Memory) : (s.setMem m).index = s.index := rfl
@[simp] theorem State.setMem_stack (m : Memory) : (s.setMem m).stack = s.stack := rfl
@[simp] theorem State.setMem_mem (m : Memory) : (s.setMem m).mem = m := rfl
@[simp] theorem State.setMem_fb (m : Memory) : (s.setMem m).fb = s.fb := rfl
@[simp] theorem State.setMem_dirty (m : Memory) : (s.setMem m).dirty = s.dirty := rfl
@[simp] theorem State.setMem_dt (m : Memory) : (s.setMem m).dt = s.dt := rfl
@[simp] theorem State.setMem_st (m : Memory) : (s.setMem m).st = s.st := rfl
@[simp] theorem State.setMem_keys (m : Memory) : (s.setMem m).keys = s.keys := rfl
@[simp] theorem State.setMem_wait (m : Memory) : (s.setMem m).wait = s.wait := rfl
@[simp] theorem State.setMem_status (m : Memory) : (s.setMem m).status = s.status := rfl
@[simp] theorem State.setMem_imageLen (m : Memory) : (s.setMem m).imageLen = s.imageLen := rfl
@[simp] theorem State.setMem_config (m : Memory) : (s.setMem m).config = s.config := rfl
@[simp] theorem State.setMem_inputs (m : Memory) : (s.setMem m).inputs = s.inputs := rfl
@[simp] theorem State.setMem_frame (m : Memory) : (s.setMem m).frame = s.frame := rfl
@[simp] theorem State.setMem_renderOut (m : Memory) : (s.setMem m).renderOut = s.renderOut := rfl
@[simp] theorem State.setMem_audioOut (m : Memory) : (s.setMem m).audioOut = s.audioOut := rfl
@[simp] theorem State.setMem_reg (m : Memory) (r : RegIx) : (s.setMem m).reg r = s.reg r := rfl
@[simp] theorem State.setMem_sp (m : Memory) : (s.setMem m).sp = s.sp := rfl
@[simp] theorem State.setMem_keyDown (m : Memory) (k : Nat) : (s.setMem m).keyDown k = s.keyDown k := rfl
@[simp] theorem State.setMem_frameInput (m : Memory) : (s.setMem m).frameInput = s.frameInput := rfl
@[simp] theorem State.setMem_stackFull (m : Memory) : (s.setMem m).stackFull = s.stackFull := rfl

/-! #### setScreen -/

@[simp] theorem State.setScreen_v (f : Framebuffer) : (s.setScreen f).v = s.v := rfl
@[simp] theorem State.setScreen_pc (f : Framebuffer) : (s.setScreen f).pc = s.pc := rfl
@[simp] theorem State.setScreen_index (f : Framebuffer) : (s.setScreen f).index = s.index := rfl
@[simp] theorem State.setScreen_stack (f : Framebuffer) : (s.setScreen f).stack = s.stack := rfl
@[simp] theorem State.setScreen_mem (f : Framebuffer) : (s.setScreen f).mem = s.mem := rfl
@[simp] theorem State.setScreen_fb (f : Framebuffer) : (s.setScreen f).fb = f := rfl
@[simp] theorem State.setScreen_dirty (f : Framebuffer) : (s.setScreen f).dirty = true := rfl
@[simp] theorem State.setScreen_dt (f : Framebuffer) : (s.setScreen f).dt = s.dt := rfl
@[simp] theorem State.setScreen_st (f : Framebuffer) : (s.setScreen f).st = s.st := rfl
@[simp] theorem State.setScreen_keys (f : Framebuffer) : (s.setScreen f).keys = s.keys := rfl
@[simp] theorem State.setScreen_wait (f : Framebuffer) : (s.setScreen f).wait = s.wait := rfl
@[simp] theorem State.setScreen_status (f : Framebuffer) : (s.setScreen f).status = s.status := rfl
@[simp] theorem State.setScreen_imageLen (f : Framebuffer) : (s.setScreen f).imageLen = s.imageLen := rfl
@[simp] theorem State.setScreen_config (f : Framebuffer) : (s.setScreen f).config = s.config := rfl
@[simp] theorem State.setScreen_inputs (f : Framebuffer) : (s.setScreen f).inputs = s.inputs := rfl
@[simp] theorem State.setScreen_frame (f : Framebuffer) : (s.setScreen f).frame = s.frame := rfl
@[simp] theorem State.setScreen_renderOut (f : Framebuffer) : (s.setScreen f).renderOut = s.renderOut := rfl
@[simp] theorem State.setScreen_audioOut (f : Framebuffer) : (s.setScreen f).audioOut = s.audioOut := rfl
@[simp] theorem State.setScreen_reg (f : Framebuffer) (r : RegIx) : (s.setScreen f).reg r = s.reg r := rfl
@[simp] theorem State.setScreen_sp (f : Framebuffer) : (s.setScreen f).sp = s.sp := rfl
@[simp] theorem State.setScreen_readByte (f : Framebuffer) (b : Nat) : (s.setScreen f).readByte b = s.readByte b := rfl
@[simp] theorem State.setScreen_keyDown (f : Framebuffer) (k : Nat) : (s.setScreen f).keyDown k = s.keyDown k := rfl
@[simp] theorem State.setScreen_frameInput (f : Framebuffer) : (s.setScreen f).frameInput = s.frameInput := rfl
@[simp] theorem State.setScreen_stackFull (f : Framebuffer) : (s.setScreen f).stackFull = s.stackFull := rfl

/-! #### advance -/

@[simp] theorem State.advance_v : (s.advance).v = s.v := rfl
@[simp] theorem State.advance_pc : (s.advance).pc = s.pc + 2#16 := rfl
@[simp] theorem State.advance_index : (s.advance).index = s.index := rfl
@[simp] theorem State.advance_stack : (s.advance).stack = s.stack := rfl
@[simp] theorem State.advance_mem : (s.advance).mem = s.mem := rfl
@[simp] theorem State.advance_fb : (s.advance).fb = s.fb := rfl
@[simp] theorem State.advance_dirty : (s.advance).dirty = s.dirty := rfl
@[simp] theorem State.advance_dt : (s.advance).dt = s.dt := rfl
@[simp] theorem State.advance_st : (s.advance).st = s.st := rfl
@[simp] theorem State.advance_keys : (s.advance).keys = s.keys := rfl
@[simp] theorem State.advance_wait : (s.advance).wait = s.wait := rfl
@[simp] theorem State.advance_status : (s.advance).status = s.status := rfl
@[simp] theorem State.advance_imageLen : (s.advance).imageLen = s.imageLen := rfl
@[simp] theorem State.advance_config : (s.advance).config = s.config := rfl
@[simp] theorem State.advance_inputs : (s.advance).inputs = s.inputs := rfl
@[simp] theorem State.advance_frame : (s.advance).frame = s.frame := rfl
@[simp] theorem State.advance_renderOut : (s.advance).renderOut = s.renderOut := rfl
@[simp] theorem State.advance_audioOut : (s.advance).audioOut = s.audioOut := rfl
@[simp] theorem State.advance_reg (r : RegIx) : (s.advance).reg r = s.reg r := rfl
@[simp] theorem State.advance_sp : (s.advance).sp = s.sp := rfl
@[simp] theorem State.advance_readByte (b : Nat) : (s.advance).readByte b = s.readByte b := rfl
@[simp] theorem State.advance_keyDown (k : Nat) : (s.advance).keyDown k = s.keyDown k := rfl
@[simp] theorem State.advance_frameInput : (s.advance).frameInput = s.frameInput := rfl
@[simp] theorem State.advance_stackFull : (s.advance).stackFull = s.stackFull := rfl

/-! #### push -/

@[simp] theorem State.push_v (a : Word) : (s.push a).v = s.v := rfl
@[simp] theorem State.push_pc (a : Word) : (s.push a).pc = s.pc := rfl
@[simp] theorem State.push_index (a : Word) : (s.push a).index = s.index := rfl
@[simp] theorem State.push_stack (a : Word) : (s.push a).stack = a :: s.stack := rfl
@[simp] theorem State.push_mem (a : Word) : (s.push a).mem = s.mem := rfl
@[simp] theorem State.push_fb (a : Word) : (s.push a).fb = s.fb := rfl
@[simp] theorem State.push_dirty (a : Word) : (s.push a).dirty = s.dirty := rfl
@[simp] theorem State.push_dt (a : Word) : (s.push a).dt = s.dt := rfl
@[simp] theorem State.push_st (a : Word) : (s.push a).st = s.st := rfl
@[simp] theorem State.push_keys (a : Word) : (s.push a).keys = s.keys := rfl
@[simp] theorem State.push_wait (a : Word) : (s.push a).wait = s.wait := rfl
@[simp] theorem State.push_status (a : Word) : (s.push a).status = s.status := rfl
@[simp] theorem State.push_imageLen (a : Word) : (s.push a).imageLen = s.imageLen := rfl
@[simp] theorem State.push_config (a : Word) : (s.push a).config = s.config := rfl
@[simp] theorem State.push_inputs (a : Word) : (s.push a).inputs = s.inputs := rfl
@[simp] theorem State.push_frame (a : Word) : (s.push a).frame = s.frame := rfl
@[simp] theorem State.push_renderOut (a : Word) : (s.push a).renderOut = s.renderOut := rfl
@[simp] theorem State.push_audioOut (a : Word) : (s.push a).audioOut = s.audioOut := rfl
@[simp] theorem State.push_reg (a : Word) (r : RegIx) : (s.push a).reg r = s.reg r := rfl
@[simp] theorem State.push_readByte (a : Word) (b : Nat) : (s.push a).readByte b = s.readByte b := rfl
@[simp] theorem State.push_keyDown (a : Word) (k : Nat) : (s.push a).keyDown k = s.keyDown k := rfl
@[simp] theorem State.push_frameInput (a : Word) : (s.push a).frameInput = s.frameInput := rfl

/-! #### writeByte -/

@[simp] theorem State.writeByte_v (a : Nat) (c : Byte) : (s.writeByte a c).v = s.v := rfl
@[simp] theorem State.writeByte_pc (a : Nat) (c : Byte) : (s.writeByte a c).pc = s.pc := rfl
@[simp] theorem State.writeByte_index (a : Nat) (c : Byte) : (s.writeByte a c).index = s.index := rfl
@[simp] theorem State.writeByte_stack (a : Nat) (c : Byte) : (s.writeByte a c).stack = s.stack := rfl
@[simp] theorem State.writeByte_mem (a : Nat) (c : Byte) : (s.writeByte a c).mem = putCell (resetByte s.config a) s.mem a c := rfl
@[simp] theorem State.writeByte_fb (a : Nat) (c : Byte) : (s.writeByte a c).fb = s.fb := rfl
@[simp] theorem State.writeByte_dirty (a : Nat) (c : Byte) : (s.writeByte a c).dirty = s.dirty := rfl
@[simp] theorem State.writeByte_dt (a : Nat) (c : Byte) : (s.writeByte a c).dt = s.dt := rfl
@[simp] theorem State.writeByte_st (a : Nat) (c : Byte) : (s.writeByte a c).st = s.st := rfl
@[simp] theorem State.writeByte_keys (a : Nat) (c : Byte) : (s.writeByte a c).keys = s.keys := rfl
@[simp] theorem State.writeByte_wait (a : Nat) (c : Byte) : (s.writeByte a c).wait = s.wait := rfl
@[simp] theorem State.writeByte_status (a : Nat) (c : Byte) : (s.writeByte a c).status = s.status := rfl
@[simp] theorem State.writeByte_imageLen (a : Nat) (c : Byte) : (s.writeByte a c).imageLen = s.imageLen := rfl
@[simp] theorem State.writeByte_config (a : Nat) (c : Byte) : (s.writeByte a c).config = s.config := rfl
@[simp] theorem State.writeByte_inputs (a : Nat) (c : Byte) : (s.writeByte a c).inputs = s.inputs := rfl
@[simp] theorem State.writeByte_frame (a : Nat) (c : Byte) : (s.writeByte a c).frame = s.frame := rfl
@[simp] theorem State.writeByte_renderOut (a : Nat) (c : Byte) : (s.writeByte a c).renderOut = s.renderOut := rfl
@[simp] theorem State.writeByte_audioOut (a : Nat) (c : Byte) : (s.writeByte a c).audioOut = s.audioOut := rfl
@[simp] theorem State.writeByte_reg (a : Nat) (c : Byte) (r : RegIx) : (s.writeByte a c).reg r = s.reg r := rfl
@[simp] theorem State.writeByte_sp (a : Nat) (c : Byte) : (s.writeByte a c).sp = s.sp := rfl
@[simp] theorem State.writeByte_keyDown (a : Nat) (c : Byte) (k : Nat) : (s.writeByte a c).keyDown k = s.keyDown k := rfl
@[simp] theorem State.writeByte_frameInput (a : Nat) (c : Byte) : (s.writeByte a c).frameInput = s.frameInput := rfl
@[simp] theorem State.writeByte_stackFull (a : Nat) (c : Byte) : (s.writeByte a c).stackFull = s.stackFull := rfl

/-! #### clearOutputs -/

@[simp] theorem State.clearOutputs_v : (s.clearOutputs).v = s.v := rfl
@[simp] theorem State.clearOutputs_pc : (s.clearOutputs).pc = s.pc := rfl
@[simp] theorem State.clearOutputs_index : (s.clearOutputs).index = s.index := rfl
@[simp] theorem State.clearOutputs_stack : (s.clearOutputs).stack = s.stack := rfl
@[simp] theorem State.clearOutputs_mem : (s.clearOutputs).mem = s.mem := rfl
@[simp] theorem State.clearOutputs_fb : (s.clearOutputs).fb = s.fb := rfl
@[simp] theorem State.clearOutputs_dirty : (s.clearOutputs).dirty = s.dirty := rfl
@[simp] theorem State.clearOutputs_dt : (s.clearOutputs).dt = s.dt := rfl
@[simp] theorem State.clearOutputs_st : (s.clearOutputs).st = s.st := rfl
@[simp] theorem State.clearOutputs_keys : (s.clearOutputs).keys = s.keys := rfl
@[simp] theorem State.clearOutputs_wait : (s.clearOutputs).wait = s.wait := rfl
@[simp] theorem State.clearOutputs_status : (s.clearOutputs).status = s.status := rfl
@[simp] theorem State.clearOutputs_imageLen : (s.clearOutputs).imageLen = s.imageLen := rfl
@[simp] theorem State.clearOutputs_config : (s.clearOutputs).config = s.config := rfl
@[simp] theorem State.clearOutputs_inputs : (s.clearOutputs).inputs = s.inputs := rfl
@[simp] theorem State.clearOutputs_frame : (s.clearOutputs).frame = s.frame := rfl
@[simp] theorem State.clearOutputs_renderOut : (s.clearOutputs).renderOut = none := rfl
@[simp] theorem State.clearOutputs_audioOut : (s.clearOutputs).audioOut = none := rfl
@[simp] theorem State.clearOutputs_reg (r : RegIx) : (s.clearOutputs).reg r = s.reg r := rfl
@[simp] theorem State.clearOutputs_sp : (s.clearOutputs).sp = s.sp := rfl
@[simp] theorem State.clearOutputs_readByte (b : Nat) : (s.clearOutputs).readByte b = s.readByte b := rfl
@[simp] theorem State.clearOutputs_keyDown (k : Nat) : (s.clearOutputs).keyDown k = s.keyDown k := rfl
@[simp] theorem State.clearOutputs_frameInput : (s.clearOutputs).frameInput = s.frameInput := rfl
@[simp] theorem State.clearOutputs_stackFull : (s.clearOutputs).stackFull = s.stackFull := rfl

/-! #### nextInputs -/

@[simp] theorem State.nextInputs_v : (s.nextInputs).v = s.v := rfl
@[simp] theorem State.nextInputs_pc : (s.nextInputs).pc = s.pc := rfl
@[simp] theorem State.nextInputs_index : (s.nextInputs).index = s.index := rfl
@[simp] theorem State.nextInputs_stack : (s.nextInputs).stack = s.stack := rfl
@[simp] theorem State.nextInputs_mem : (s.nextInputs).mem = s.mem := rfl
@[simp] theorem State.nextInputs_fb : (s.nextInputs).fb = s.fb := rfl
@[simp] theorem State.nextInputs_dirty : (s.nextInputs).dirty = s.dirty := rfl
@[simp] theorem State.nextInputs_dt : (s.nextInputs).dt = s.dt := rfl
@[simp] theorem State.nextInputs_st : (s.nextInputs).st = s.st := rfl
@[simp] theorem State.nextInputs_keys : (s.nextInputs).keys = s.keys := rfl
@[simp] theorem State.nextInputs_wait : (s.nextInputs).wait = s.wait := rfl
@[simp] theorem State.nextInputs_status : (s.nextInputs).status = s.status := rfl
@[simp] theorem State.nextInputs_imageLen : (s.nextInputs).imageLen = s.imageLen := rfl
@[simp] theorem State.nextInputs_config : (s.nextInputs).config = s.config := rfl
@[simp] theorem State.nextInputs_inputs : (s.nextInputs).inputs = s.inputs.tail := rfl
@[simp] theorem State.nextInputs_frame : (s.nextInputs).frame = s.frame + 1 := rfl
@[simp] theorem State.nextInputs_renderOut : (s.nextInputs).renderOut = s.renderOut := rfl
@[simp] theorem State.nextInputs_audioOut : (s.nextInputs).audioOut = s.audioOut := rfl
@[simp] theorem State.nextInputs_reg (r : RegIx) : (s.nextInputs).reg r = s.reg r := rfl
@[simp] theorem State.nextInputs_sp : (s.nextInputs).sp = s.sp := rfl
@[simp] theorem State.nextInputs_readByte (b : Nat) : (s.nextInputs).readByte b = s.readByte b := rfl
@[simp] theorem State.nextInputs_keyDown (k : Nat) : (s.nextInputs).keyDown k = s.keyDown k := rfl
@[simp] theorem State.nextInputs_stackFull : (s.nextInputs).stackFull = s.stackFull := rfl

/-! #### The updates that loop or choose -/

/-- A taken skip is one more write of PC. -/
theorem State.skipIf_eq (c : Bool) : s.skipIf c = s.setPc (if c then s.pc + 2#16 else s.pc) := by
  cases c <;> rfl

theorem State.commit_eq (x : RegIx) (f : Flagged) : s.commit x f = { s with v := (s.commit x f).v } := by
  unfold State.commit
  split
  · rfl
  · split <;> rfl

theorem State.setRegsFrom_eq (k : Nat) (l : List Byte) : s.setRegsFrom k l = { s with v := (s.setRegsFrom k l).v } := by
  induction l generalizing s k with
  | nil => rfl
  | cons b rest ih => exact ih _ _

theorem State.writeBytes_eq (a : Nat) (l : List Byte) : s.writeBytes a l = s.setMem (s.writeBytes a l).mem := by
  induction l generalizing s a with
  | nil => rfl
  | cons b rest ih => exact ih _ _

@[simp] theorem State.skipIf_v (c : Bool) : (s.skipIf c).v = s.v :=
  (congrArg State.v (State.skipIf_eq s c)).trans rfl
@[simp] theorem State.skipIf_index (c : Bool) : (s.skipIf c).index = s.index :=
  (congrArg State.index (State.skipIf_eq s c)).trans rfl
@[simp] theorem State.skipIf_stack (c : Bool) : (s.skipIf c).stack = s.stack :=
  (congrArg State.stack (State.skipIf_eq s c)).trans rfl
@[simp] theorem State.skipIf_mem (c : Bool) : (s.skipIf c).mem = s.mem :=
  (congrArg State.mem (State.skipIf_eq s c)).trans rfl
@[simp] theorem State.skipIf_fb (c : Bool) : (s.skipIf c).fb = s.fb :=
  (congrArg State.fb (State.skipIf_eq s c)).trans rfl
@[simp] theorem State.skipIf_dirty (c : Bool) : (s.skipIf c).dirty = s.dirty :=
  (congrArg State.dirty (State.skipIf_eq s c)).trans rfl
@[simp] theorem State.skipIf_dt (c : Bool) : (s.skipIf c).dt = s.dt :=
  (congrArg State.dt (State.skipIf_eq s c)).trans rfl
@[simp] theorem State.skipIf_st (c : Bool) : (s.skipIf c).st = s.st :=
  (congrArg State.st (State.skipIf_eq s c)).trans rfl
@[simp] theorem State.skipIf_keys (c : Bool) : (s.skipIf c).keys = s.keys :=
  (congrArg State.keys (State.skipIf_eq s c)).trans rfl
@[simp] theorem State.skipIf_wait (c : Bool) : (s.skipIf c).wait = s.wait :=
  (congrArg State.wait (State.skipIf_eq s c)).trans rfl
@[simp] theorem State.skipIf_status (c : Bool) : (s.skipIf c).status = s.status :=
  (congrArg State.status (State.skipIf_eq s c)).trans rfl
@[simp] theorem State.skipIf_imageLen (c : Bool) : (s.skipIf c).imageLen = s.imageLen :=
  (congrArg State.imageLen (State.skipIf_eq s c)).trans rfl
@[simp] theorem State.skipIf_config (c : Bool) : (s.skipIf c).config = s.config :=
  (congrArg State.config (State.skipIf_eq s c)).trans rfl
@[simp] theorem State.skipIf_inputs (c : Bool) : (s.skipIf c).inputs = s.inputs :=
  (congrArg State.inputs (State.skipIf_eq s c)).trans rfl
@[simp] theorem State.skipIf_frame (c : Bool) : (s.skipIf c).frame = s.frame :=
  (congrArg State.frame (State.skipIf_eq s c)).trans rfl
@[simp] theorem State.skipIf_renderOut (c : Bool) : (s.skipIf c).renderOut = s.renderOut :=
  (congrArg State.renderOut (State.skipIf_eq s c)).trans rfl
@[simp] theorem State.skipIf_audioOut (c : Bool) : (s.skipIf c).audioOut = s.audioOut :=
  (congrArg State.audioOut (State.skipIf_eq s c)).trans rfl
@[simp] theorem State.skipIf_reg (c : Bool) (r : RegIx) : (s.skipIf c).reg r = s.reg r :=
  (congrArg (fun t => State.reg t r) (State.skipIf_eq s c)).trans rfl
@[simp] theorem State.skipIf_sp (c : Bool) : (s.skipIf c).sp = s.sp :=
  (congrArg (fun t => State.sp t) (State.skipIf_eq s c)).trans rfl
@[simp] theorem State.skipIf_readByte (c : Bool) (b : Nat) : (s.skipIf c).readByte b = s.readByte b :=
  (congrArg (fun t => State.readByte t b) (State.skipIf_eq s c)).trans rfl
@[simp] theorem State.skipIf_keyDown (c : Bool) (k : Nat) : (s.skipIf c).keyDown k = s.keyDown k :=
  (congrArg (fun t => State.keyDown t k) (State.skipIf_eq s c)).trans rfl
@[simp] theorem State.skipIf_frameInput (c : Bool) : (s.skipIf c).frameInput = s.frameInput :=
  (congrArg (fun t => State.frameInput t) (State.skipIf_eq s c)).trans rfl
@[simp] theorem State.skipIf_stackFull (c : Bool) : (s.skipIf c).stackFull = s.stackFull :=
  (congrArg (fun t => State.stackFull t) (State.skipIf_eq s c)).trans rfl

@[simp] theorem State.commit_pc (x : RegIx) (f : Flagged) : (s.commit x f).pc = s.pc :=
  (congrArg State.pc (State.commit_eq s x f)).trans rfl
@[simp] theorem State.commit_index (x : RegIx) (f : Flagged) : (s.commit x f).index = s.index :=
  (congrArg State.index (State.commit_eq s x f)).trans rfl
@[simp] theorem State.commit_stack (x : RegIx) (f : Flagged) : (s.commit x f).stack = s.stack :=
  (congrArg State.stack (State.commit_eq s x f)).trans rfl
@[simp] theorem State.commit_mem (x : RegIx) (f : Flagged) : (s.commit x f).mem = s.mem :=
  (congrArg State.mem (State.commit_eq s x f)).trans rfl
@[simp] theorem State.commit_fb (x : RegIx) (f : Flagged) : (s.commit x f).fb = s.fb :=
  (congrArg State.fb (State.commit_eq s x f)).trans rfl
@[simp] theorem State.commit_dirty (x : RegIx) (f : Flagged) : (s.commit x f).dirty = s.dirty :=
  (congrArg State.dirty (State.commit_eq s x f)).trans rfl
@[simp] theorem State.commit_dt (x : RegIx) (f : Flagged) : (s.commit x f).dt = s.dt :=
  (congrArg State.dt (State.commit_eq s x f)).trans rfl
@[simp] theorem State.commit_st (x : RegIx) (f : Flagged) : (s.commit x f).st = s.st :=
  (congrArg State.st (State.commit_eq s x f)).trans rfl
@[simp] theorem State.commit_keys (x : RegIx) (f : Flagged) : (s.commit x f).keys = s.keys :=
  (congrArg State.keys (State.commit_eq s x f)).trans rfl
@[simp] theorem State.commit_wait (x : RegIx) (f : Flagged) : (s.commit x f).wait = s.wait :=
  (congrArg State.wait (State.commit_eq s x f)).trans rfl
@[simp] theorem State.commit_status (x : RegIx) (f : Flagged) : (s.commit x f).status = s.status :=
  (congrArg State.status (State.commit_eq s x f)).trans rfl
@[simp] theorem State.commit_imageLen (x : RegIx) (f : Flagged) : (s.commit x f).imageLen = s.imageLen :=
  (congrArg State.imageLen (State.commit_eq s x f)).trans rfl
@[simp] theorem State.commit_config (x : RegIx) (f : Flagged) : (s.commit x f).config = s.config :=
  (congrArg State.config (State.commit_eq s x f)).trans rfl
@[simp] theorem State.commit_inputs (x : RegIx) (f : Flagged) : (s.commit x f).inputs = s.inputs :=
  (congrArg State.inputs (State.commit_eq s x f)).trans rfl
@[simp] theorem State.commit_frame (x : RegIx) (f : Flagged) : (s.commit x f).frame = s.frame :=
  (congrArg State.frame (State.commit_eq s x f)).trans rfl
@[simp] theorem State.commit_renderOut (x : RegIx) (f : Flagged) : (s.commit x f).renderOut = s.renderOut :=
  (congrArg State.renderOut (State.commit_eq s x f)).trans rfl
@[simp] theorem State.commit_audioOut (x : RegIx) (f : Flagged) : (s.commit x f).audioOut = s.audioOut :=
  (congrArg State.audioOut (State.commit_eq s x f)).trans rfl
@[simp] theorem State.commit_sp (x : RegIx) (f : Flagged) : (s.commit x f).sp = s.sp :=
  (congrArg (fun t => State.sp t) (State.commit_eq s x f)).trans rfl
@[simp] theorem State.commit_readByte (x : RegIx) (f : Flagged) (b : Nat) : (s.commit x f).readByte b = s.readByte b :=
  (congrArg (fun t => State.readByte t b) (State.commit_eq s x f)).trans rfl
@[simp] theorem State.commit_keyDown (x : RegIx) (f : Flagged) (k : Nat) : (s.commit x f).keyDown k = s.keyDown k :=
  (congrArg (fun t => State.keyDown t k) (State.commit_eq s x f)).trans rfl
@[simp] theorem State.commit_frameInput (x : RegIx) (f : Flagged) : (s.commit x f).frameInput = s.frameInput :=
  (congrArg (fun t => State.frameInput t) (State.commit_eq s x f)).trans rfl
@[simp] theorem State.commit_stackFull (x : RegIx) (f : Flagged) : (s.commit x f).stackFull = s.stackFull :=
  (congrArg (fun t => State.stackFull t) (State.commit_eq s x f)).trans rfl

@[simp] theorem State.setRegsFrom_pc (j : Nat) (l : List Byte) : (s.setRegsFrom j l).pc = s.pc :=
  (congrArg State.pc (State.setRegsFrom_eq s j l)).trans rfl
@[simp] theorem State.setRegsFrom_index (j : Nat) (l : List Byte) : (s.setRegsFrom j l).index = s.index :=
  (congrArg State.index (State.setRegsFrom_eq s j l)).trans rfl
@[simp] theorem State.setRegsFrom_stack (j : Nat) (l : List Byte) : (s.setRegsFrom j l).stack = s.stack :=
  (congrArg State.stack (State.setRegsFrom_eq s j l)).trans rfl
@[simp] theorem State.setRegsFrom_mem (j : Nat) (l : List Byte) : (s.setRegsFrom j l).mem = s.mem :=
  (congrArg State.mem (State.setRegsFrom_eq s j l)).trans rfl
@[simp] theorem State.setRegsFrom_fb (j : Nat) (l : List Byte) : (s.setRegsFrom j l).fb = s.fb :=
  (congrArg State.fb (State.setRegsFrom_eq s j l)).trans rfl
@[simp] theorem State.setRegsFrom_dirty (j : Nat) (l : List Byte) : (s.setRegsFrom j l).dirty = s.dirty :=
  (congrArg State.dirty (State.setRegsFrom_eq s j l)).trans rfl
@[simp] theorem State.setRegsFrom_dt (j : Nat) (l : List Byte) : (s.setRegsFrom j l).dt = s.dt :=
  (congrArg State.dt (State.setRegsFrom_eq s j l)).trans rfl
@[simp] theorem State.setRegsFrom_st (j : Nat) (l : List Byte) : (s.setRegsFrom j l).st = s.st :=
  (congrArg State.st (State.setRegsFrom_eq s j l)).trans rfl
@[simp] theorem State.setRegsFrom_keys (j : Nat) (l : List Byte) : (s.setRegsFrom j l).keys = s.keys :=
  (congrArg State.keys (State.setRegsFrom_eq s j l)).trans rfl
@[simp] theorem State.setRegsFrom_wait (j : Nat) (l : List Byte) : (s.setRegsFrom j l).wait = s.wait :=
  (congrArg State.wait (State.setRegsFrom_eq s j l)).trans rfl
@[simp] theorem State.setRegsFrom_status (j : Nat) (l : List Byte) : (s.setRegsFrom j l).status = s.status :=
  (congrArg State.status (State.setRegsFrom_eq s j l)).trans rfl
@[simp] theorem State.setRegsFrom_imageLen (j : Nat) (l : List Byte) : (s.setRegsFrom j l).imageLen = s.imageLen :=
  (congrArg State.imageLen (State.setRegsFrom_eq s j l)).trans rfl
@[simp] theorem State.setRegsFrom_config (j : Nat) (l : List Byte) : (s.setRegsFrom j l).config = s.config :=
  (congrArg State.config (State.setRegsFrom_eq s j l)).trans rfl
@[simp] theorem State.setRegsFrom_inputs (j : Nat) (l : List Byte) : (s.setRegsFrom j l).inputs = s.inputs :=
  (congrArg State.inputs (State.setRegsFrom_eq s j l)).trans rfl
@[simp] theorem State.setRegsFrom_frame (j : Nat) (l : List Byte) : (s.setRegsFrom j l).frame = s.frame :=
  (congrArg State.frame (State.setRegsFrom_eq s j l)).trans rfl
@[simp] theorem State.setRegsFrom_renderOut (j : Nat) (l : List Byte) : (s.setRegsFrom j l).renderOut = s.renderOut :=
  (congrArg State.renderOut (State.setRegsFrom_eq s j l)).trans rfl
@[simp] theorem State.setRegsFrom_audioOut (j : Nat) (l : List Byte) : (s.setRegsFrom j l).audioOut = s.audioOut :=
  (congrArg State.audioOut (State.setRegsFrom_eq s j l)).trans rfl
@[simp] theorem State.setRegsFrom_sp (j : Nat) (l : List Byte) : (s.setRegsFrom j l).sp = s.sp :=
  (congrArg (fun t => State.sp t) (State.setRegsFrom_eq s j l)).trans rfl
@[simp] theorem State.setRegsFrom_readByte (j : Nat) (l : List Byte) (b : Nat) : (s.setRegsFrom j l).readByte b = s.readByte b :=
  (congrArg (fun t => State.readByte t b) (State.setRegsFrom_eq s j l)).trans rfl
@[simp] theorem State.setRegsFrom_keyDown (j : Nat) (l : List Byte) (k : Nat) : (s.setRegsFrom j l).keyDown k = s.keyDown k :=
  (congrArg (fun t => State.keyDown t k) (State.setRegsFrom_eq s j l)).trans rfl
@[simp] theorem State.setRegsFrom_frameInput (j : Nat) (l : List Byte) : (s.setRegsFrom j l).frameInput = s.frameInput :=
  (congrArg (fun t => State.frameInput t) (State.setRegsFrom_eq s j l)).trans rfl
@[simp] theorem State.setRegsFrom_stackFull (j : Nat) (l : List Byte) : (s.setRegsFrom j l).stackFull = s.stackFull :=
  (congrArg (fun t => State.stackFull t) (State.setRegsFrom_eq s j l)).trans rfl

@[simp] theorem State.writeBytes_v (a : Nat) (l : List Byte) : (s.writeBytes a l).v = s.v :=
  (congrArg State.v (State.writeBytes_eq s a l)).trans rfl
@[simp] theorem State.writeBytes_pc (a : Nat) (l : List Byte) : (s.writeBytes a l).pc = s.pc :=
  (congrArg State.pc (State.writeBytes_eq s a l)).trans rfl
@[simp] theorem State.writeBytes_index (a : Nat) (l : List Byte) : (s.writeBytes a l).index = s.index :=
  (congrArg State.index (State.writeBytes_eq s a l)).trans rfl
@[simp] theorem State.writeBytes_stack (a : Nat) (l : List Byte) : (s.writeBytes a l).stack = s.stack :=
  (congrArg State.stack (State.writeBytes_eq s a l)).trans rfl
@[simp] theorem State.writeBytes_fb (a : Nat) (l : List Byte) : (s.writeBytes a l).fb = s.fb :=
  (congrArg State.fb (State.writeBytes_eq s a l)).trans rfl
@[simp] theorem State.writeBytes_dirty (a : Nat) (l : List Byte) : (s.writeBytes a l).dirty = s.dirty :=
  (congrArg State.dirty (State.writeBytes_eq s a l)).trans rfl
@[simp] theorem State.writeBytes_dt (a : Nat) (l : List Byte) : (s.writeBytes a l).dt = s.dt :=
  (congrArg State.dt (State.writeBytes_eq s a l)).trans rfl
@[simp] theorem State.writeBytes_st (a : Nat) (l : List Byte) : (s.writeBytes a l).st = s.st :=
  (congrArg State.st (State.writeBytes_eq s a l)).trans rfl
@[simp] theorem State.writeBytes_keys (a : Nat) (l : List Byte) : (s.writeBytes a l).keys = s.keys :=
  (congrArg State.keys (State.writeBytes_eq s a l)).trans rfl
@[simp] theorem State.writeBytes_wait (a : Nat) (l : List Byte) : (s.writeBytes a l).wait = s.wait :=
  (congrArg State.wait (State.writeBytes_eq s a l)).trans rfl
@[simp] theorem State.writeBytes_status (a : Nat) (l : List Byte) : (s.writeBytes a l).status = s.status :=
  (congrArg State.status (State.writeBytes_eq s a l)).trans rfl
@[simp] theorem State.writeBytes_imageLen (a : Nat) (l : List Byte) : (s.writeBytes a l).imageLen = s.imageLen :=
  (congrArg State.imageLen (State.writeBytes_eq s a l)).trans rfl
@[simp] theorem State.writeBytes_config (a : Nat) (l : List Byte) : (s.writeBytes a l).config = s.config :=
  (congrArg State.config (State.writeBytes_eq s a l)).trans rfl
@[simp] theorem State.writeBytes_inputs (a : Nat) (l : List Byte) : (s.writeBytes a l).inputs = s.inputs :=
  (congrArg State.inputs (State.writeBytes_eq s a l)).trans rfl
@[simp] theorem State.writeBytes_frame (a : Nat) (l : List Byte) : (s.writeBytes a l).frame = s.frame :=
  (congrArg State.frame (State.writeBytes_eq s a l)).trans rfl
@[simp] theorem State.writeBytes_renderOut (a : Nat) (l : List Byte) : (s.writeBytes a l).renderOut = s.renderOut :=
  (congrArg State.renderOut (State.writeBytes_eq s a l)).trans rfl
@[simp] theorem State.writeBytes_audioOut (a : Nat) (l : List Byte) : (s.writeBytes a l).audioOut = s.audioOut :=
  (congrArg State.audioOut (State.writeBytes_eq s a l)).trans rfl
@[simp] theorem State.writeBytes_reg (a : Nat) (l : List Byte) (r : RegIx) : (s.writeBytes a l).reg r = s.reg r :=
  (congrArg (fun t => State.reg t r) (State.writeBytes_eq s a l)).trans rfl
@[simp] theorem State.writeBytes_sp (a : Nat) (l : List Byte) : (s.writeBytes a l).sp = s.sp :=
  (congrArg (fun t => State.sp t) (State.writeBytes_eq s a l)).trans rfl
@[simp] theorem State.writeBytes_keyDown (a : Nat) (l : List Byte) (k : Nat) : (s.writeBytes a l).keyDown k = s.keyDown k :=
  (congrArg (fun t => State.keyDown t k) (State.writeBytes_eq s a l)).trans rfl
@[simp] theorem State.writeBytes_frameInput (a : Nat) (l : List Byte) : (s.writeBytes a l).frameInput = s.frameInput :=
  (congrArg (fun t => State.frameInput t) (State.writeBytes_eq s a l)).trans rfl
@[simp] theorem State.writeBytes_stackFull (a : Nat) (l : List Byte) : (s.writeBytes a l).stackFull = s.stackFull :=
  (congrArg (fun t => State.stackFull t) (State.writeBytes_eq s a l)).trans rfl

@[simp] theorem State.skipIf_pc (c : Bool) : (s.skipIf c).pc = if c then s.pc + 2#16 else s.pc := by
  rw [State.skipIf_eq]; rfl

end Sys2Proof.Machine
end

