-- ==== Sys2Proof/Laws/Memory.lean ====
section
/-!
SUPPORT. Memory: a read after a write, and that every memory operation keeps the canonical form.
-/
namespace Sys2Proof.Machine

/-! ### Reading after writing -/

theorem findCell_insertCell_same (m : Memory) (a : Nat) (b : Byte) (h : ∀ c ∈ m, c.1 ≠ a) :
    findCell (insertCell (a, b) m) a = some b := by
  induction m with
  | nil => simp [insertCell, findCell]
  | cons c rest ih =>
    simp only [insertCell]
    split
    · simp [findCell]
    · have hc : c.1 ≠ a := h c (by simp)
      simp [findCell, hc, ih fun d hd => h d (by simp [hd])]

theorem findCell_insertCell_other (m : Memory) {a a' : Nat} (b : Byte) (h : a' ≠ a) :
    findCell (insertCell (a, b) m) a' = findCell m a' := by
  induction m with
  | nil => simp [insertCell, findCell, Ne.symm h]
  | cons c rest ih =>
    simp only [insertCell]
    split
    · simp [findCell, Ne.symm h]
    · simp only [findCell, ih]

theorem findCell_filter_same (m : Memory) (a : Nat) : findCell (m.filter fun c => c.1 != a) a = none := by
  induction m with
  | nil => rfl
  | cons c rest ih => by_cases h : c.1 = a <;> simp [h, findCell, ih]

theorem findCell_filter_other (m : Memory) {a a' : Nat} (h : a' ≠ a) :
    findCell (m.filter fun c => c.1 != a) a' = findCell m a' := by
  induction m with
  | nil => rfl
  | cons c rest ih =>
    by_cases hc : c.1 = a
    · have : ¬a = a' := Ne.symm h
      simp [hc, findCell, ih, this]
    · simp [hc, findCell, ih]

/-- The byte at any address after one byte is written, in every state. -/
theorem readByte_writeByte (s : State) (a a' : Nat) (b : Byte) :
    (s.writeByte a b).readByte a' = if a' = a then b else s.readByte a' := by
  simp only [State.readByte, State.writeByte_mem, State.writeByte_config, putCell]
  by_cases h : a' = a
  · subst h
    by_cases hb : b = resetByte s.config a'
    · simp [hb, findCell_filter_same]
    · have : ∀ c ∈ s.mem.filter (fun c => c.1 != a'), c.1 ≠ a' := by simp
      simp [hb, findCell_insertCell_same _ _ _ this]
  · by_cases hb : b = resetByte s.config a
    · simp [hb, h, findCell_filter_other _ h]
    · simp [hb, h, findCell_insertCell_other _ _ h, findCell_filter_other _ h]

/-- The byte at any address after a run of bytes is written (20_memory.md R56). -/
theorem readByte_writeBytes (s : State) (a a' : Nat) (l : List Byte) :
    (s.writeBytes a l).readByte a' =
      if a ≤ a' ∧ a' < a + l.length then l.getD (a' - a) 0#8 else s.readByte a' := by
  induction l generalizing s a with
  | nil => have : ¬(a ≤ a' ∧ a' < a) := by omega
           simp [State.writeBytes, this]
  | cons b rest ih =>
    rw [State.writeBytes, ih, readByte_writeByte]
    by_cases h : a' = a
    · subst h
      simp
    · by_cases hin : a + 1 ≤ a' ∧ a' < a + 1 + rest.length
      · have h2 : a ≤ a' ∧ a' < a + (rest.length + 1) := by omega
        have h3 : a' - a = (a' - (a + 1)) + 1 := by omega
        simp only [hin, and_self, if_true, List.length_cons, h2]
        rw [h3, List.getD_cons_succ]
      · have h2 : ¬(a ≤ a' ∧ a' < a + (rest.length + 1)) := by omega
        simp only [hin, h, List.length_cons, h2, if_false]

/-! ### The accesses with their bounds -/

theorem inBounds_iff (a n : Nat) : inBounds a n = true ↔ n = 0 ∨ a + n ≤ 0x1000 := by
  simp only [inBounds, Bool.or_eq_true, beq_iff_eq, decide_eq_true_eq]
  omega

/-- Everything MemRead can answer (R55). -/
theorem memRead_eq (s : State) (a n : Nat) :
    s.memRead a n =
      if n = 0 ∨ a + n ≤ 0x1000 then some ((List.range n).map fun k => s.readByte (a + k)) else none := by
  unfold State.memRead
  simp only [inBounds_iff]

/-- Everything MemWrite can answer (R56). -/
theorem memWrite_eq (s : State) (a : Nat) (l : List Byte) :
    s.memWrite a l = if l.length = 0 ∨ a + l.length ≤ 0x1000 then some (s.writeBytes a l) else none := by
  unfold State.memWrite
  simp only [inBounds_iff]

/-- What a read of one word answers. -/
theorem memRead_word (s : State) (a : Nat) :
    s.memRead a 2 = if a + 2 ≤ 0x1000 then some [s.readByte a, s.readByte (a + 1)] else none := by
  simp [memRead_eq, List.range_succ]

/-! ### The canonical form -/

theorem insertCell_mem {m : Memory} {c d : Host.Cell} (h : d ∈ insertCell c m) : d = c ∨ d ∈ m := by
  induction m with
  | nil => simpa [insertCell] using h
  | cons e rest ih =>
    simp only [insertCell] at h
    split at h
    · simpa using h
    · rcases List.mem_cons.mp h with rfl | h
      · simp
      · rcases ih h with rfl | h <;> simp [*]

theorem insertCell_pairwise {m : Memory} {c : Host.Cell} (hm : m.Pairwise fun p q => p.1 < q.1)
    (hne : ∀ d ∈ m, d.1 ≠ c.1) : (insertCell c m).Pairwise fun p q => p.1 < q.1 := by
  induction m with
  | nil => simp [insertCell]
  | cons e rest ih =>
    obtain ⟨he, hrest⟩ := List.pairwise_cons.mp hm
    simp only [insertCell]
    split
    · rename_i hlt
      refine List.pairwise_cons.mpr ⟨fun d hd => ?_, hm⟩
      rcases List.mem_cons.mp hd with rfl | hd
      · exact hlt
      · exact hlt.trans (he d hd)
    · have hec := hne e (by simp)
      refine List.pairwise_cons.mpr ⟨fun d hd => ?_, ih hrest fun d hd => hne d (by simp [hd])⟩
      rcases insertCell_mem hd with rfl | hd
      · omega
      · exact he d hd

/-- Writing one byte inside the space keeps the canonical form. -/
theorem putCell_wf (c : Config) (m : Memory) (a : Nat) (b : Byte) (hm : memoryWf c m) (ha : a < 0x1000) :
    memoryWf c (putCell (resetByte c a) m a b) := by
  obtain ⟨hp, hd⟩ := hm
  have hp' : (m.filter fun p => p.1 != a).Pairwise fun p q => p.1 < q.1 := hp.filter _
  have hd' : ∀ p ∈ m.filter (fun p => p.1 != a), p.1 < 0x1000 ∧ p.2 ≠ resetByte c p.1 :=
    fun p h => hd p (List.mem_filter.mp h).1
  unfold putCell
  split
  · exact ⟨hp', hd'⟩
  · rename_i hb
    refine ⟨insertCell_pairwise hp' (by simp), fun p h => ?_⟩
    rcases insertCell_mem h with rfl | h
    · exact ⟨ha, hb⟩
    · exact hd' p h

theorem writeByte_wf (s : State) (a : Nat) (b : Byte) (hm : memoryWf s.config s.mem) (ha : a < 0x1000) :
    memoryWf (s.writeByte a b).config (s.writeByte a b).mem :=
  putCell_wf s.config s.mem a b hm ha

theorem writeBytes_wf (s : State) (a : Nat) (l : List Byte) (hm : memoryWf s.config s.mem)
    (ha : l.length = 0 ∨ a + l.length ≤ 0x1000) :
    memoryWf (s.writeBytes a l).config (s.writeBytes a l).mem := by
  induction l generalizing s a with
  | nil => exact hm
  | cons b rest ih =>
    simp only [List.length_cons] at ha
    exact ih _ _ (writeByte_wf s a b hm (by omega)) (by omega)

/-- MemWrite keeps the canonical form. -/
theorem memWrite_wf {s t : State} {a : Nat} {l : List Byte} (h : s.memWrite a l = some t)
    (hm : memoryWf s.config s.mem) : memoryWf t.config t.mem := by
  rw [memWrite_eq] at h
  split at h
  · rename_i hb
    cases h
    exact writeBytes_wf s a l hm hb
  · cases h

theorem reset_memory_wf : memoryWf State.reset.config State.reset.mem := by
  refine ⟨List.Pairwise.nil, fun p h => absurd h (by simp [State.reset])⟩

/-- The load port keeps the canonical form. -/
theorem load_memory_wf {c : Config} {image : List Byte} {ins : List FrameInput} {t : State}
    (h : State.load c image ins = some t) : memoryWf t.config t.mem := by
  unfold State.load at h
  split at h
  · rename_i hl
    cases h
    refine writeBytes_wf { State.reset with config := c } 0x200 image ?_ (by omega)
    exact ⟨List.Pairwise.nil, fun p h => absurd h (by simp [State.reset])⟩
  · cases h

end Sys2Proof.Machine
end

