-- ==== Sys2Proof/Laws/Registers.lean ====
section
/-!
SUPPORT. The register operations: reading a register after each of them, and what the stack operations do.
-/
namespace Sys2Proof.Machine

theorem reg_setReg (s : State) (x r : RegIx) (b : Byte) : (s.setReg x b).reg r = if r = x then b else s.reg r := by
  simp only [State.reg, State.setReg, Vector.getElem_set]
  by_cases h : r = x
  · simp [h]
  · have : ¬x.toNat = r.toNat := fun e => h (BitVec.eq_of_toNat_eq e.symm)
    simp [h, this]

@[simp] theorem reg_setReg_same (s : State) (x : RegIx) (b : Byte) : (s.setReg x b).reg x = b := by
  simp [reg_setReg]

theorem reg_setReg_of_ne (s : State) {x r : RegIx} (b : Byte) (h : r ≠ x) : (s.setReg x b).reg r = s.reg r := by
  simp [reg_setReg, h]

/-- Every register after a commit: the flag in VF and the result in VX, VF_ORDER deciding for x = F (R141). -/
theorem reg_commit (s : State) (x r : RegIx) (f : Flagged) :
    (s.commit x f).reg r =
      if r = vf then (if x = vf ∧ s.config.vfOrder = .resultLast then f.result else f.flag)
      else if r = x then f.result else s.reg r := by
  unfold State.commit
  by_cases hx : x = vf
  · subst hx
    cases h : s.config.vfOrder <;> by_cases hr : r = vf <;> simp [reg_setReg, hr]
  · by_cases hr : r = vf <;> simp [reg_setReg, hx, hr]

theorem toNat_ofNat_index {k : Nat} (h : k < 16) : (BitVec.ofNat 4 k).toNat = k := by
  simp [BitVec.toNat_ofNat, Nat.mod_eq_of_lt h]

/-- Every register after a run of registers from V[k] on is written (R177). -/
theorem reg_setRegsFrom (s : State) (k : Nat) (l : List Byte) (h : k + l.length ≤ 16) (r : RegIx) :
    (s.setRegsFrom k l).reg r =
      if k ≤ r.toNat ∧ r.toNat < k + l.length then l.getD (r.toNat - k) 0#8 else s.reg r := by
  induction l generalizing s k with
  | nil => have : ¬(k ≤ r.toNat ∧ r.toNat < k) := by omega
           simp [State.setRegsFrom, this]
  | cons b rest ih =>
    simp only [List.length_cons] at h
    have hk : (BitVec.ofNat 4 k).toNat = k := toNat_ofNat_index (by omega)
    rw [State.setRegsFrom, ih _ _ (by omega), reg_setReg]
    by_cases hr : r.toNat = k
    · have : r = BitVec.ofNat 4 k := BitVec.eq_of_toNat_eq (by rw [hk, hr])
      have h1 : ¬(k + 1 ≤ r.toNat) := by omega
      simp [this, hk]
    · have hne : r ≠ BitVec.ofNat 4 k := fun e => hr (by rw [e, hk])
      by_cases hin : k + 1 ≤ r.toNat ∧ r.toNat < k + 1 + rest.length
      · have h2 : k ≤ r.toNat ∧ r.toNat < k + (rest.length + 1) := by omega
        have h3 : r.toNat - k = (r.toNat - (k + 1)) + 1 := by omega
        simp only [hin, and_self, if_true, List.length_cons, h2]
        rw [h3, List.getD_cons_succ]
      · have h2 : ¬(k ≤ r.toNat ∧ r.toNat < k + (rest.length + 1)) := by omega
        simp only [hin, hne, List.length_cons, h2, if_false]

@[simp] theorem length_regsUpTo (s : State) (x : RegIx) : (s.regsUpTo x).length = x.toNat + 1 := by
  simp [State.regsUpTo, transferCount]

theorem getD_regsUpTo (s : State) (x r : RegIx) (h : r.toNat ≤ x.toNat) : (s.regsUpTo x).getD r.toNat 0#8 = s.reg r := by
  have : r.toNat < (List.range (transferCount x)).length := by simp [transferCount]; omega
  simp [State.regsUpTo, transferCount, List.getD, List.getElem?_map, List.getElem?_range (show r.toNat < x.toNat + 1 by omega)]

end Sys2Proof.Machine
end

