-- ==== Sys2Proof/Laws/Cycle.lean ====
section
/-!
SUPPORT. The phases of a frame: what each can do, and what a step can do.
-/
namespace Sys2Proof.Machine

variable (s : State)

/-! ### The ends of a frame -/

theorem State.renderPhase_eq :
    s.renderPhase = { s with renderOut := if s.dirty then some s.fb else s.renderOut, dirty := false } := by
  obtain ⟨v, pc, index, stack, mem, fb, dirty, dt, st, keys, wait, status, imageLen, config, inputs, frame, r, a⟩ := s
  cases dirty <;> rfl

@[simp] theorem State.renderPhase_v : s.renderPhase.v = s.v := (congrArg State.v s.renderPhase_eq).trans rfl
@[simp] theorem State.renderPhase_pc : s.renderPhase.pc = s.pc := (congrArg State.pc s.renderPhase_eq).trans rfl
@[simp] theorem State.renderPhase_index : s.renderPhase.index = s.index := (congrArg State.index s.renderPhase_eq).trans rfl
@[simp] theorem State.renderPhase_stack : s.renderPhase.stack = s.stack := (congrArg State.stack s.renderPhase_eq).trans rfl
@[simp] theorem State.renderPhase_mem : s.renderPhase.mem = s.mem := (congrArg State.mem s.renderPhase_eq).trans rfl
@[simp] theorem State.renderPhase_fb : s.renderPhase.fb = s.fb := (congrArg State.fb s.renderPhase_eq).trans rfl
@[simp] theorem State.renderPhase_dt : s.renderPhase.dt = s.dt := (congrArg State.dt s.renderPhase_eq).trans rfl
@[simp] theorem State.renderPhase_st : s.renderPhase.st = s.st := (congrArg State.st s.renderPhase_eq).trans rfl
@[simp] theorem State.renderPhase_keys : s.renderPhase.keys = s.keys := (congrArg State.keys s.renderPhase_eq).trans rfl
@[simp] theorem State.renderPhase_wait : s.renderPhase.wait = s.wait := (congrArg State.wait s.renderPhase_eq).trans rfl
@[simp] theorem State.renderPhase_status : s.renderPhase.status = s.status := (congrArg State.status s.renderPhase_eq).trans rfl
@[simp] theorem State.renderPhase_imageLen : s.renderPhase.imageLen = s.imageLen := (congrArg State.imageLen s.renderPhase_eq).trans rfl
@[simp] theorem State.renderPhase_config : s.renderPhase.config = s.config := (congrArg State.config s.renderPhase_eq).trans rfl
@[simp] theorem State.renderPhase_inputs : s.renderPhase.inputs = s.inputs := (congrArg State.inputs s.renderPhase_eq).trans rfl
@[simp] theorem State.renderPhase_frame : s.renderPhase.frame = s.frame := (congrArg State.frame s.renderPhase_eq).trans rfl
@[simp] theorem State.renderPhase_audioOut : s.renderPhase.audioOut = s.audioOut := (congrArg State.audioOut s.renderPhase_eq).trans rfl
@[simp] theorem State.renderPhase_dirty : s.renderPhase.dirty = false := (congrArg State.dirty s.renderPhase_eq).trans rfl
@[simp] theorem State.renderPhase_renderOut : s.renderPhase.renderOut = if s.dirty then some s.fb else s.renderOut :=
  (congrArg State.renderOut s.renderPhase_eq).trans rfl

@[simp] theorem State.timerPhase_v : s.timerPhase.v = s.v := rfl
@[simp] theorem State.timerPhase_pc : s.timerPhase.pc = s.pc := rfl
@[simp] theorem State.timerPhase_index : s.timerPhase.index = s.index := rfl
@[simp] theorem State.timerPhase_stack : s.timerPhase.stack = s.stack := rfl
@[simp] theorem State.timerPhase_mem : s.timerPhase.mem = s.mem := rfl
@[simp] theorem State.timerPhase_fb : s.timerPhase.fb = s.fb := rfl
@[simp] theorem State.timerPhase_dirty : s.timerPhase.dirty = s.dirty := rfl
@[simp] theorem State.timerPhase_keys : s.timerPhase.keys = s.keys := rfl
@[simp] theorem State.timerPhase_wait : s.timerPhase.wait = s.wait := rfl
@[simp] theorem State.timerPhase_status : s.timerPhase.status = s.status := rfl
@[simp] theorem State.timerPhase_imageLen : s.timerPhase.imageLen = s.imageLen := rfl
@[simp] theorem State.timerPhase_config : s.timerPhase.config = s.config := rfl
@[simp] theorem State.timerPhase_inputs : s.timerPhase.inputs = s.inputs := rfl
@[simp] theorem State.timerPhase_frame : s.timerPhase.frame = s.frame := rfl
@[simp] theorem State.timerPhase_renderOut : s.timerPhase.renderOut = s.renderOut := rfl
@[simp] theorem State.timerPhase_dt : s.timerPhase.dt = tickDown s.dt := rfl
@[simp] theorem State.timerPhase_st : s.timerPhase.st = tickDown s.st := rfl
@[simp] theorem State.timerPhase_audioOut : s.timerPhase.audioOut =
    some (audioEvent (zeroTransition s.st (tickDown s.st)) (tickDown s.st)) := rfl

/-- A frame whose phase 2 raised no fault ends with render and tick (R110, R111). -/
theorem State.finish_running (h : s.status = .running) : s.finish = s.renderPhase.timerPhase := by
  simp [State.finish, h]

/-- A fault ends the frame at once (R112). -/
theorem State.finish_faulted {k : FaultKind} (h : s.status = .faulted k) : s.finish = s := by
  simp [State.finish, h]

theorem State.finish_cases : s.finish = s.renderPhase.timerPhase ∨ s.finish = s := by
  unfold State.finish
  split
  · exact .inl rfl
  · exact .inr rfl

@[simp] theorem State.finish_v : s.finish.v = s.v := by rcases s.finish_cases with h | h <;> simp [h]
@[simp] theorem State.finish_pc : s.finish.pc = s.pc := by rcases s.finish_cases with h | h <;> simp [h]
@[simp] theorem State.finish_index : s.finish.index = s.index := by rcases s.finish_cases with h | h <;> simp [h]
@[simp] theorem State.finish_stack : s.finish.stack = s.stack := by rcases s.finish_cases with h | h <;> simp [h]
@[simp] theorem State.finish_mem : s.finish.mem = s.mem := by rcases s.finish_cases with h | h <;> simp [h]
@[simp] theorem State.finish_fb : s.finish.fb = s.fb := by rcases s.finish_cases with h | h <;> simp [h]
@[simp] theorem State.finish_keys : s.finish.keys = s.keys := by rcases s.finish_cases with h | h <;> simp [h]
@[simp] theorem State.finish_wait : s.finish.wait = s.wait := by rcases s.finish_cases with h | h <;> simp [h]
@[simp] theorem State.finish_status : s.finish.status = s.status := by rcases s.finish_cases with h | h <;> simp [h]
@[simp] theorem State.finish_imageLen : s.finish.imageLen = s.imageLen := by rcases s.finish_cases with h | h <;> simp [h]
@[simp] theorem State.finish_config : s.finish.config = s.config := by rcases s.finish_cases with h | h <;> simp [h]
@[simp] theorem State.finish_inputs : s.finish.inputs = s.inputs := by rcases s.finish_cases with h | h <;> simp [h]
@[simp] theorem State.finish_frame : s.finish.frame = s.frame := by rcases s.finish_cases with h | h <;> simp [h]

/-- One tick takes a timer down by one and leaves a zero at zero (R245). -/
theorem tickDown_toNat (b : Byte) : (tickDown b).toNat = b.toNat - 1 := by
  unfold tickDown
  split
  · rename_i h
    simp [h]
  · rename_i h
    have : b.toNat ≠ 0 := fun e => h (BitVec.eq_of_toNat_eq (by simpa using e))
    bv_omega

/-! ### Key-wait resolution -/

/-- Rel is what was captured and is now up: the union before the check adds nothing to it (R108). -/
theorem releasedKeys_eq (captured now : KeyMap) : releasedKeys captured now = captured &&& ~~~now := by
  refine BitVec.eq_of_getLsbD_eq fun i hi => ?_
  simp only [releasedKeys, BitVec.getLsbD_and, BitVec.getLsbD_or, BitVec.getLsbD_not, hi]
  cases captured.getLsbD i <;> cases now.getLsbD i <;> rfl

theorem exists_key {set : KeyMap} (h : set ≠ 0#16) : ∃ k, k < 16 ∧ set.getLsbD k = true := by
  by_contra hc
  refine h (BitVec.eq_of_getLsbD_eq fun i hi => ?_)
  have : ¬set.getLsbD i = true := fun e => hc ⟨i, hi, e⟩
  simpa using this

theorem lowestKey_mem {set : KeyMap} (h : set ≠ 0#16) : set.getLsbD (lowestKey set).toNat = true := by
  obtain ⟨k, hk, hkk⟩ := exists_key h
  unfold lowestKey
  cases hf : (List.range 16).find? fun k => set.getLsbD k with
  | none => exact absurd hkk (by simpa using List.find?_eq_none.mp hf k (List.mem_range.mpr hk))
  | some j =>
    have hj : j < 16 := List.mem_range.mp (List.mem_of_find?_eq_some hf)
    have hp : set.getLsbD j = true := by simpa using List.find?_some hf
    simpa [toNat_ofNat_index hj] using hp

/-- The chosen key is a released one (decision D13). -/
theorem chooseKey_mem {rel : KeyMap} (h : rel ≠ 0#16) (kchoice : Nibble) :
    rel.getLsbD (chooseKey rel kchoice).toNat = true := by
  unfold chooseKey
  split
  · assumption
  · exact lowestKey_mem h

/-- Every released key is the choice of some draw: the draw that names it. -/
theorem chooseKey_drawn {rel : KeyMap} {k : Nibble} (h : rel.getLsbD k.toNat = true) : chooseKey rel k = k := by
  simp [chooseKey, h]

/-- Everything resolve_wait can do (R107). -/
theorem State.resolveWait_cases (r : RegIx) (captured : KeyMap) (kchoice : Nibble) :
    (releasedKeys captured s.keys = 0#16 ∧
      s.resolveWait r captured kchoice = s.setWait (.waiting r (captured ||| s.keys))) ∨
    (releasedKeys captured s.keys ≠ 0#16 ∧ s.resolveWait r captured kchoice =
      (s.setReg r ((chooseKey (releasedKeys captured s.keys) kchoice).setWidth 8)).setWait .idle) := by
  unfold State.resolveWait
  split <;> rename_i h
  · exact .inl ⟨h, rfl⟩
  · exact .inr ⟨h, rfl⟩

@[simp] theorem State.resolveWait_pc (r : RegIx) (c : KeyMap) (q : Nibble) : (s.resolveWait r c q).pc = s.pc := by
  rcases s.resolveWait_cases r c q with ⟨_, h⟩ | ⟨_, h⟩ <;> rw [h] <;> rfl
@[simp] theorem State.resolveWait_index (r : RegIx) (c : KeyMap) (q : Nibble) : (s.resolveWait r c q).index = s.index := by
  rcases s.resolveWait_cases r c q with ⟨_, h⟩ | ⟨_, h⟩ <;> rw [h] <;> rfl
@[simp] theorem State.resolveWait_stack (r : RegIx) (c : KeyMap) (q : Nibble) : (s.resolveWait r c q).stack = s.stack := by
  rcases s.resolveWait_cases r c q with ⟨_, h⟩ | ⟨_, h⟩ <;> rw [h] <;> rfl
@[simp] theorem State.resolveWait_mem (r : RegIx) (c : KeyMap) (q : Nibble) : (s.resolveWait r c q).mem = s.mem := by
  rcases s.resolveWait_cases r c q with ⟨_, h⟩ | ⟨_, h⟩ <;> rw [h] <;> rfl
@[simp] theorem State.resolveWait_fb (r : RegIx) (c : KeyMap) (q : Nibble) : (s.resolveWait r c q).fb = s.fb := by
  rcases s.resolveWait_cases r c q with ⟨_, h⟩ | ⟨_, h⟩ <;> rw [h] <;> rfl
@[simp] theorem State.resolveWait_dirty (r : RegIx) (c : KeyMap) (q : Nibble) : (s.resolveWait r c q).dirty = s.dirty := by
  rcases s.resolveWait_cases r c q with ⟨_, h⟩ | ⟨_, h⟩ <;> rw [h] <;> rfl
@[simp] theorem State.resolveWait_dt (r : RegIx) (c : KeyMap) (q : Nibble) : (s.resolveWait r c q).dt = s.dt := by
  rcases s.resolveWait_cases r c q with ⟨_, h⟩ | ⟨_, h⟩ <;> rw [h] <;> rfl
@[simp] theorem State.resolveWait_st (r : RegIx) (c : KeyMap) (q : Nibble) : (s.resolveWait r c q).st = s.st := by
  rcases s.resolveWait_cases r c q with ⟨_, h⟩ | ⟨_, h⟩ <;> rw [h] <;> rfl
@[simp] theorem State.resolveWait_keys (r : RegIx) (c : KeyMap) (q : Nibble) : (s.resolveWait r c q).keys = s.keys := by
  rcases s.resolveWait_cases r c q with ⟨_, h⟩ | ⟨_, h⟩ <;> rw [h] <;> rfl
@[simp] theorem State.resolveWait_status (r : RegIx) (c : KeyMap) (q : Nibble) : (s.resolveWait r c q).status = s.status := by
  rcases s.resolveWait_cases r c q with ⟨_, h⟩ | ⟨_, h⟩ <;> rw [h] <;> rfl
@[simp] theorem State.resolveWait_imageLen (r : RegIx) (c : KeyMap) (q : Nibble) : (s.resolveWait r c q).imageLen = s.imageLen := by
  rcases s.resolveWait_cases r c q with ⟨_, h⟩ | ⟨_, h⟩ <;> rw [h] <;> rfl
@[simp] theorem State.resolveWait_config (r : RegIx) (c : KeyMap) (q : Nibble) : (s.resolveWait r c q).config = s.config := by
  rcases s.resolveWait_cases r c q with ⟨_, h⟩ | ⟨_, h⟩ <;> rw [h] <;> rfl
@[simp] theorem State.resolveWait_inputs (r : RegIx) (c : KeyMap) (q : Nibble) : (s.resolveWait r c q).inputs = s.inputs := by
  rcases s.resolveWait_cases r c q with ⟨_, h⟩ | ⟨_, h⟩ <;> rw [h] <;> rfl
@[simp] theorem State.resolveWait_frame (r : RegIx) (c : KeyMap) (q : Nibble) : (s.resolveWait r c q).frame = s.frame := by
  rcases s.resolveWait_cases r c q with ⟨_, h⟩ | ⟨_, h⟩ <;> rw [h] <;> rfl
@[simp] theorem State.resolveWait_renderOut (r : RegIx) (c : KeyMap) (q : Nibble) : (s.resolveWait r c q).renderOut = s.renderOut := by
  rcases s.resolveWait_cases r c q with ⟨_, h⟩ | ⟨_, h⟩ <;> rw [h] <;> rfl
@[simp] theorem State.resolveWait_audioOut (r : RegIx) (c : KeyMap) (q : Nibble) : (s.resolveWait r c q).audioOut = s.audioOut := by
  rcases s.resolveWait_cases r c q with ⟨_, h⟩ | ⟨_, h⟩ <;> rw [h] <;> rfl

/-! ### What a step can do -/

/-- Everything phase 2 can do (R102 to R106). -/
theorem phaseTwo_cases {q : Nibble} {u : State} (h : phaseTwo q s = .next u) :
    (∃ r c, s.wait = .waiting r c ∧ u = s.resolveWait r c q) ∨
    (∃ i, s.wait = .idle ∧ s.fetchDecode = .instr i ∧ exec i s = .next u) ∨
    (∃ k, s.wait = .idle ∧ s.fetchDecode = .fault k ∧ u = s.setStatus (.faulted k)) := by
  unfold phaseTwo at h
  split at h
  · rename_i r c hw
    exact .inl ⟨r, c, hw, by cases h; rfl⟩
  · rename_i hw
    unfold stepInstruction at h
    split at h
    · rename_i i hf
      exact .inr (.inl ⟨i, hw, hf, h⟩)
    · rename_i k hf
      exact .inr (.inr ⟨k, hw, hf, by cases h; rfl⟩)

/-- Everything a step can do when it answers a next state (R100, R101): a Stop frame, or a frame with a keymap whose phase 2
answered u and which then ended. -/
theorem step_cases {t : State} (h : step s = .next t) :
    s.status = .running ∧
    ((s.frameInput.poll = .stop ∧ t = (s.clearOutputs.setStatus .stopped).nextInputs) ∨
     (∃ k u, s.frameInput.poll = .keys k ∧ phaseTwo s.frameInput.kchoice (s.clearOutputs.setKeys k) = .next u ∧
        t = u.finish.nextInputs)) := by
  unfold step stepCore at h
  split at h
  · rename_i hr
    refine ⟨hr, ?_⟩
    unfold runFrame at h
    split at h
    · rename_i hp
      exact .inl ⟨hp, by cases h; rfl⟩
    · rename_i k hp
      cases hu : phaseTwo s.frameInput.kchoice (s.clearOutputs.setKeys k) with
      | next u => rw [hu] at h; exact .inr ⟨k, u, hp, hu, by cases h; rfl⟩
      | fault f => rw [hu] at h; cases h
      | refused r => rw [hu] at h; cases h
  · cases h
  · cases h

/-- A frame with a keymap is its phase 2 and its end. -/
theorem step_keys {k : KeyMap} (hr : s.status = .running) (hp : s.frameInput.poll = .keys k) :
    step s = finishFrame (phaseTwo s.frameInput.kchoice (s.clearOutputs.setKeys k)) := by
  simp [step, stepCore, hr, runFrame, hp]

end Sys2Proof.Machine
end

