-- ==== Sys2Proof/Laws/Decode.lean ====
section
/-!
SUPPORT. The fields of a word built from its fields, for each format of 30_encoding.md R70, and every word as built from its
own fields.
-/
namespace Sys2Proof

@[simp] theorem fieldC_addressWord (c : Nibble) (nnn : Addr) : fieldC (addressWord c nnn) = c := by
  ext i hi
  simp only [fieldC, addressWord, BitVec.getElem_extractLsb', BitVec.getLsbD_append]
  simp [hi]

@[simp] theorem fieldNNN_addressWord (c : Nibble) (nnn : Addr) : fieldNNN (addressWord c nnn) = nnn := by
  ext i hi
  simp only [fieldNNN, addressWord, BitVec.getElem_extractLsb', BitVec.getLsbD_append]
  simp [hi]

@[simp] theorem fieldC_byteWord (c : Nibble) (x : RegIx) (nn : Byte) : fieldC (byteWord c x nn) = c := by
  ext i hi
  simp only [fieldC, byteWord, BitVec.getElem_extractLsb', BitVec.getLsbD_append]
  simp [hi]

@[simp] theorem fieldX_byteWord (c : Nibble) (x : RegIx) (nn : Byte) : fieldX (byteWord c x nn) = x := by
  ext i hi
  have : 8 + i < 12 := by omega
  simp only [fieldX, byteWord, BitVec.getElem_extractLsb', BitVec.getLsbD_append]
  simp [hi, this]

@[simp] theorem fieldNN_byteWord (c : Nibble) (x : RegIx) (nn : Byte) : fieldNN (byteWord c x nn) = nn := by
  ext i hi
  have : i < 12 := by omega
  simp only [fieldNN, byteWord, BitVec.getElem_extractLsb', BitVec.getLsbD_append]
  simp [hi, this]

@[simp] theorem fieldC_nibbleWord (c : Nibble) (x y : RegIx) (n : Nibble) : fieldC (nibbleWord c x y n) = c := by
  ext i hi
  simp only [fieldC, nibbleWord, BitVec.getElem_extractLsb', BitVec.getLsbD_append]
  simp [hi]

@[simp] theorem fieldX_nibbleWord (c : Nibble) (x y : RegIx) (n : Nibble) : fieldX (nibbleWord c x y n) = x := by
  ext i hi
  have : 8 + i < 12 := by omega
  simp only [fieldX, nibbleWord, BitVec.getElem_extractLsb', BitVec.getLsbD_append]
  simp [hi, this]

@[simp] theorem fieldY_nibbleWord (c : Nibble) (x y : RegIx) (n : Nibble) : fieldY (nibbleWord c x y n) = y := by
  ext i hi
  have h1 : 4 + i < 12 := by omega
  have h2 : 4 + i < 8 := by omega
  simp only [fieldY, nibbleWord, BitVec.getElem_extractLsb', BitVec.getLsbD_append]
  simp [hi, h1, h2]

@[simp] theorem fieldN_nibbleWord (c : Nibble) (x y : RegIx) (n : Nibble) : fieldN (nibbleWord c x y n) = n := by
  ext i hi
  have h1 : i < 12 := by omega
  have h2 : i < 8 := by omega
  simp only [fieldN, nibbleWord, BitVec.getElem_extractLsb', BitVec.getLsbD_append]
  simp [hi, h1, h2]

/-- Every word is its class and its address field. -/
theorem addressWord_fields (w : Word) : addressWord (fieldC w) (fieldNNN w) = w := by
  refine BitVec.eq_of_getLsbD_eq fun i hi => ?_
  simp only [addressWord, fieldC, fieldNNN, BitVec.getLsbD_append, BitVec.getLsbD_extractLsb']
  by_cases h : i < 12
  · simp [h]
  · have : 12 + (i - 12) = i ∧ i - 12 < 4 := by omega
    simp [h, this]

/-- Every word is its class, its x and its low byte. -/
theorem byteWord_fields (w : Word) : byteWord (fieldC w) (fieldX w) (fieldNN w) = w := by
  refine BitVec.eq_of_getLsbD_eq fun i hi => ?_
  simp only [byteWord, fieldC, fieldX, fieldNN, BitVec.getLsbD_append, BitVec.getLsbD_extractLsb']
  by_cases h : i < 12
  · by_cases h2 : i < 8
    · simp [h, h2]
    · have : 8 + (i - 8) = i ∧ i - 8 < 4 := by omega
      simp [h, h2, this]
  · have : 12 + (i - 12) = i ∧ i - 12 < 4 := by omega
    simp [h, this]

/-- Every word is its four nibbles. -/
theorem nibbleWord_fields (w : Word) : nibbleWord (fieldC w) (fieldX w) (fieldY w) (fieldN w) = w := by
  refine BitVec.eq_of_getLsbD_eq fun i hi => ?_
  simp only [nibbleWord, fieldC, fieldX, fieldY, fieldN, BitVec.getLsbD_append, BitVec.getLsbD_extractLsb']
  by_cases h : i < 12
  · by_cases h2 : i < 8
    · by_cases h3 : i < 4
      · simp [h, h2, h3]
      · have : 4 + (i - 4) = i ∧ i - 4 < 4 := by omega
        simp [h, h2, h3, this]
    · have : 8 + (i - 8) = i ∧ i - 8 < 4 := by omega
      simp [h, h2, this]
  · have : 12 + (i - 12) = i ∧ i - 12 < 4 := by omega
    simp [h, this]

/-- The bytes of a word, put together again, are the word (20_memory.md R51). -/
@[simp] theorem wordOfBytes_bytesOfWord (w : Word) : wordOfBytes (w.extractLsb' 8 8) (w.extractLsb' 0 8) = w := by
  refine BitVec.eq_of_getLsbD_eq fun i hi => ?_
  simp only [wordOfBytes, BitVec.getLsbD_append, BitVec.getLsbD_extractLsb']
  by_cases h : i < 8
  · simp [h]
  · have : 8 + (i - 8) = i ∧ i - 8 < 8 := by omega
    simp [h, this]

/-- Decoding the bytes of a word is decoding the word. -/
theorem decodeBytes_bytesOfWord (p : SysPolicy) (w : Word) : decodeBytes p (bytesOfWord w) = (decodeWord p w, []) := by
  simp [decodeBytes, bytesOfWord]

end Sys2Proof
end

