-- ==== Sys2Proof/Laws/Screen.lean ====
section
/-!
SUPPORT. The framebuffer: what one flip, one row and a whole blit do to every pixel, and when they report a collision.
-/
namespace Sys2Proof.Machine

theorem pixel_off (fb : Framebuffer) {y x : Nat} (h : ¬(y < 32 ∧ x < 64)) : pixel fb y x = false := by
  simp [pixel, h]

theorem pixel_clearScreen (y x : Nat) : pixel clearScreen y x = false := by
  unfold pixel
  split <;> simp [clearScreen]

/-- Two framebuffers are equal when every pixel is. -/
theorem framebuffer_ext {f g : Framebuffer} (h : ∀ y x, pixel f y x = pixel g y x) : f = g := by
  ext y hy x hx
  have := h y x
  simpa [pixel, hy, hx] using this

theorem pixel_flipPixel (yy xx y x : Nat) (p : Framebuffer × Bool) :
    pixel (flipPixel yy xx p).1 y x =
      ((pixel p.1 y x) ^^ (decide (y = yy) && decide (x = xx) && decide (y < 32) && decide (x < 64))) := by
  unfold flipPixel
  split
  · rename_i h
    unfold pixel
    by_cases hy : y = yy
    · subst hy
      by_cases hx : x = xx
      · subst hx
        simp [h]
      · by_cases hx2 : x < 64
        · simp [h, hx, hx2, Ne.symm hx]
        · simp [hx2]
    · by_cases hin : y < 32 ∧ x < 64
      · simp [hy, hin, Ne.symm hy]
      · simp [hy, hin]
  · rename_i h
    have hoff : (decide (yy < 32) && decide (xx < 64)) = false := by simpa using h
    by_cases hy : y = yy <;> by_cases hx : x = xx <;> simp [hy, hx, hoff]

theorem collision_flipPixel (yy xx : Nat) (p : Framebuffer × Bool) :
    (flipPixel yy xx p).2 = (p.2 || pixel p.1 yy xx) := by
  unfold flipPixel pixel
  split <;> rename_i h <;> simp

/-- The first n pixels of a sprite row: every on-screen pixel afterwards. -/
theorem pixel_rowPrefix (row : Byte) (yy x0 n : Nat) (hn : n ≤ 8) (p : Framebuffer × Bool) (y x : Nat) :
    pixel ((List.range n).foldl (blitBit row yy x0) p).1 y x =
      ((pixel p.1 y x) ^^ (decide (y = yy) && decide (x0 ≤ x) && decide (x < x0 + n) && row.getLsbD (7 - (x - x0)) &&
        decide (y < 32) && decide (x < 64))) := by
  induction n with
  | zero =>
    by_cases h1 : x0 ≤ x
    · have h2 : ¬(x < x0) := by omega
      simp [h2]
    · simp [h1]
  | succ n ih =>
    rw [List.range_succ, List.foldl_append, List.foldl_cons, List.foldl_nil]
    have ih := ih (by omega)
    generalize (List.range n).foldl (blitBit row yy x0) p = q at ih ⊢
    unfold blitBit
    by_cases hx : x = x0 + n
    · subst hx
      have e : 7 - (x0 + n - x0) = 7 - n := by omega
      by_cases hb : row.getLsbD (7 - n) = true
      · simp only [hb, if_true, pixel_flipPixel, ih, e]
        simp
      · have hb' : row.getLsbD (7 - n) = false := by simpa using hb
        rw [if_neg hb, ih, e, hb']
        simp
    · have e : decide (x < x0 + (n + 1)) = decide (x < x0 + n) := decide_eq_decide.mpr (by omega)
      rw [e]
      split
      · simp only [pixel_flipPixel, hx, decide_false, Bool.and_false, Bool.false_and, Bool.xor_false, ih]
      · exact ih

/-- The first n pixels of a sprite row: when a collision has been seen. -/
theorem collision_rowPrefix (row : Byte) (yy x0 n : Nat) (hn : n ≤ 8) (p : Framebuffer × Bool) :
    ((List.range n).foldl (blitBit row yy x0) p).2 = true ↔
      p.2 = true ∨ ∃ x, x0 ≤ x ∧ x < x0 + n ∧ row.getLsbD (7 - (x - x0)) = true ∧ pixel p.1 yy x = true := by
  induction n with
  | zero =>
    simp only [List.range_zero, List.foldl_nil]
    exact ⟨.inl, fun h => h.elim id fun ⟨x, h1, h2, _⟩ => by omega⟩
  | succ n ih =>
    rw [List.range_succ, List.foldl_append, List.foldl_cons, List.foldl_nil]
    have ih := ih (by omega)
    have e : 7 - (x0 + n - x0) = 7 - n := by omega
    have hpix : pixel ((List.range n).foldl (blitBit row yy x0) p).1 yy (x0 + n) = pixel p.1 yy (x0 + n) := by
      rw [pixel_rowPrefix row yy x0 n (by omega)]
      simp
    rw [blitBit]
    split
    · rename_i hb
      rw [collision_flipPixel, Bool.or_eq_true, ih, hpix]
      constructor
      · rintro ((h | ⟨x, h1, h2, h3⟩) | h)
        · exact .inl h
        · exact .inr ⟨x, h1, by omega, h3⟩
        · exact .inr ⟨x0 + n, by omega, by omega, by rw [e]; exact hb, h⟩
      · rintro (h | ⟨x, h1, h2, h3, h4⟩)
        · exact .inl (.inl h)
        · by_cases hx : x = x0 + n
          · subst hx
            exact .inr h4
          · exact .inl (.inr ⟨x, h1, by omega, h3, h4⟩)
    · rename_i hb
      rw [ih]
      constructor
      · rintro (h | ⟨x, h1, h2, h3⟩)
        · exact .inl h
        · exact .inr ⟨x, h1, by omega, h3⟩
      · rintro (h | ⟨x, h1, h2, h3, h4⟩)
        · exact .inl h
        · by_cases hx : x = x0 + n
          · subst hx
            rw [e] at h3
            exact absurd h3 hb
          · exact .inr ⟨x, h1, by omega, h3, h4⟩

/-- A sprite's first row is over screen row y0, the others over the rows from y0 + 1 on. -/
theorem spriteBit_cons (row : Byte) (rest : List Byte) (x0 yy y x : Nat) :
    spriteBit (row :: rest) x0 yy y x =
      ((decide (y = yy) && decide (x0 ≤ x) && decide (x < x0 + 8) && row.getLsbD (7 - (x - x0))) ||
        spriteBit rest x0 (yy + 1) y x) := by
  unfold spriteBit
  by_cases h : y = yy
  · subst h
    have : ¬(y + 1 ≤ y) := by omega
    simp
  · by_cases h2 : yy + 1 ≤ y
    · have h3 : y - yy = (y - (yy + 1)) + 1 := by omega
      have h4 : yy ≤ y := by omega
      rw [h3, List.getD_cons_succ]
      simp [h, h2, h4]
    · have h4 : ¬(yy ≤ y) := by omega
      simp [h, h2, h4]

theorem spriteBit_nil (x0 yy y x : Nat) : spriteBit [] x0 yy y x = false := by
  simp [spriteBit]

/-- A row's own pixels lie in its own screen row, those of the rows below it do not. -/
theorem spriteBit_above {rows : List Byte} {x0 yy y x : Nat} (h : y < yy) : spriteBit rows x0 yy y x = false := by
  have : ¬(yy ≤ y) := by omega
  simp [spriteBit, this]

/-- Every on-screen pixel after a sprite's rows are drawn: flipped exactly where the sprite has a 1 bit (R191). -/
theorem pixel_blitRows (x0 : Nat) (rows : List Byte) (yy : Nat) (p : Framebuffer × Bool) (y x : Nat) :
    pixel (blitRows x0 rows yy p).1 y x =
      ((pixel p.1 y x) ^^ (spriteBit rows x0 yy y x && decide (y < 32) && decide (x < 64))) := by
  induction rows generalizing yy p with
  | nil => simp [blitRows, spriteBit_nil]
  | cons row rest ih =>
    rw [blitRows, ih, blitRow, pixel_rowPrefix row yy x0 8 (le_refl 8), spriteBit_cons]
    by_cases h : y = yy
    · subst h
      rw [spriteBit_above (show y < y + 1 by omega)]
      simp
    · simp [h]

/-- When drawing a sprite's rows reports a collision: a pixel that was 1 lies under a 1 bit (R191). -/
theorem collision_blitRows (x0 : Nat) (rows : List Byte) (yy : Nat) (p : Framebuffer × Bool) :
    (blitRows x0 rows yy p).2 = true ↔
      p.2 = true ∨ ∃ y x, spriteBit rows x0 yy y x = true ∧ pixel p.1 y x = true := by
  induction rows generalizing yy p with
  | nil => simp [blitRows, spriteBit_nil]
  | cons row rest ih =>
    rw [blitRows, ih, blitRow, collision_rowPrefix row yy x0 8 (le_refl 8)]
    have hother : ∀ y x, spriteBit rest x0 (yy + 1) y x = true →
        pixel ((List.range 8).foldl (blitBit row yy x0) p).1 y x = pixel p.1 y x := by
      intro y x h
      rw [pixel_rowPrefix row yy x0 8 (le_refl 8)]
      have : y ≠ yy := fun e => by
        rw [e, spriteBit_above (show yy < yy + 1 by omega)] at h
        cases h
      simp [this]
    constructor
    · rintro ((h | ⟨x, h1, h2, h3, h4⟩) | ⟨y, x, h1, h2⟩)
      · exact .inl h
      · exact .inr ⟨yy, x, by rw [spriteBit_cons]; simp [h1, h2, h3], h4⟩
      · exact .inr ⟨y, x, by rw [spriteBit_cons, h1]; simp, by rw [hother y x h1] at h2; exact h2⟩
    · rintro (h | ⟨y, x, h1, h2⟩)
      · exact .inl (.inl h)
      · rw [spriteBit_cons, Bool.or_eq_true] at h1
        rcases h1 with h1 | h1
        · simp only [Bool.and_eq_true, decide_eq_true_eq] at h1
          obtain ⟨⟨⟨rfl, h3⟩, h4⟩, h5⟩ := h1
          exact .inl (.inr ⟨x, h3, h4, h5, h2⟩)
        · exact .inr ⟨y, x, h1, by rw [hother y x h1]; exact h2⟩

/-- Every pixel after a blit. -/
theorem pixel_blit (fb : Framebuffer) (rows : List Byte) (x0 y0 y x : Nat) :
    pixel (blit fb rows x0 y0).1 y x =
      ((pixel fb y x) ^^ (spriteBit rows x0 y0 y x && decide (y < 32) && decide (x < 64))) :=
  pixel_blitRows x0 rows y0 (fb, false) y x

/-- When a blit reports a collision. -/
theorem collision_blit (fb : Framebuffer) (rows : List Byte) (x0 y0 : Nat) :
    (blit fb rows x0 y0).2 = true ↔ ∃ y x, spriteBit rows x0 y0 y x = true ∧ pixel fb y x = true := by
  unfold blit
  rw [collision_blitRows]
  simp

end Sys2Proof.Machine
end

