-- ==== Sys2Proof/Laws/Exec.lean ====
section
/-!
SUPPORT. The meanings that access memory as one condition on I each, and what every instruction does to STATUS and the ports.
-/
namespace Sys2Proof.Machine

/-- LD B, VX: everything it can do (R175). -/
theorem execLdB_eq (x : RegIx) (s : State) :
    execLdB x s = if s.index.toNat + 3 ≤ 0x1000
      then .next (s.writeBytes s.index.toNat (bcdDigits (s.reg x))).advance
      else raise (.memoryFault s.index.toNat 3) s := by
  simp only [execLdB, memWrite_eq]
  by_cases h : s.index.toNat + 3 ≤ 0x1000
  · rw [if_pos (.inr (by simpa [bcdDigits] using h)), if_pos h]
  · rw [if_neg (by simpa [bcdDigits] using h), if_neg h]

/-- LD [I], VX: everything it can do (R176). -/
theorem execLdMemVx_eq (x : RegIx) (s : State) :
    execLdMemVx x s = if s.index.toNat + transferCount x ≤ 0x1000
      then .next ((s.writeBytes s.index.toNat (s.regsUpTo x)).advance.setIndex (s.index + BitVec.ofNat 16 (transferCount x)))
      else raise (.memoryFault s.index.toNat (transferCount x)) s := by
  have hx : (s.regsUpTo x).length = transferCount x := length_regsUpTo s x
  have h0 : transferCount x ≠ 0 := Nat.succ_ne_zero _
  simp only [execLdMemVx, memWrite_eq, hx, h0, false_or]
  by_cases h : s.index.toNat + transferCount x ≤ 0x1000
  · simp only [if_pos h]
  · simp only [if_neg h]

/-- LD VX, [I]: everything it can do (R177). -/
theorem execLdVxMem_eq (x : RegIx) (s : State) :
    execLdVxMem x s = if s.index.toNat + transferCount x ≤ 0x1000
      then .next ((s.advance.setRegsFrom 0
          ((List.range (transferCount x)).map fun k => s.readByte (s.index.toNat + k))).setIndex
        (s.index + BitVec.ofNat 16 (transferCount x)))
      else raise (.memoryFault s.index.toNat (transferCount x)) s := by
  have h0 : transferCount x ≠ 0 := Nat.succ_ne_zero _
  simp only [execLdVxMem, memRead_eq, h0, false_or]
  by_cases h : s.index.toNat + transferCount x ≤ 0x1000
  · simp only [if_pos h]
  · simp only [if_neg h]

/-- The n bytes of a sprite at I. -/
def spriteRows (s : State) (n : Nibble) : List Byte := (List.range n.toNat).map fun k => s.readByte (s.index.toNat + k)

/-- What DRW draws. -/
def drawn (x y : RegIx) (n : Nibble) (s : State) : Framebuffer × Bool :=
  blit s.fb (spriteRows s n) ((s.reg x).toNat % 64) ((s.reg y).toNat % 32)

/-- DRW VX, VY, nibble: everything it can do (R191). -/
theorem execDrw_eq (x y : RegIx) (n : Nibble) (s : State) :
    execDrw x y n s = if n.toNat = 0 ∨ s.index.toNat + n.toNat ≤ 0x1000
      then .next ((s.advance.setScreen (drawn x y n s).1).setReg vf (flagByte (drawn x y n s).2))
      else raise (.memoryFault s.index.toNat n.toNat) s := by
  simp only [execDrw, memRead_eq]
  by_cases h : n.toNat = 0 ∨ s.index.toNat + n.toNat ≤ 0x1000
  · rw [if_pos h, if_pos h]
    rfl
  · rw [if_neg h, if_neg h]

/-- An instruction keeps STATUS, or raises a fault and commits nothing. -/
theorem exec_status {i : Instr} {s t : State} (h : exec i s = .next t) :
    t.status = s.status ∨ ∃ k, t = s.setStatus (.faulted k) := by
  cases i <;>
    simp only [exec, execRet, execCall, execSkp, execSknp, execLdF, execLdB_eq, execLdMemVx_eq, execLdVxMem_eq, execDrw_eq,
      raise] at h <;>
    first
    | (cases h; exact .inl rfl)
    | (cases h; exact .inl (by simp))
    | (split at h <;> cases h <;> first | exact .inr ⟨_, rfl⟩ | exact .inl (by simp))

/-- No instruction touches a port or uses up an input. -/
theorem exec_ports {i : Instr} {s t : State} (h : exec i s = .next t) :
    t.renderOut = s.renderOut ∧ t.audioOut = s.audioOut ∧ t.inputs = s.inputs ∧ t.frame = s.frame := by
  cases i <;>
    simp only [exec, execRet, execCall, execSkp, execSknp, execLdF, execLdB_eq, execLdMemVx_eq, execLdVxMem_eq, execDrw_eq,
      raise] at h <;>
    first
    | (cases h; exact ⟨rfl, rfl, rfl, rfl⟩)
    | (cases h; simp)
    | (split at h <;> cases h <;> simp)

end Sys2Proof.Machine
end

