-- ==== Sys2Proof/Laws/PerInstr.lean ====
section
/-!
SUPPORT. Per instruction: its encoded word carries the fixed bits of its row of the opcode table (30_encoding.md R74). The
masks and matches are transcribed from the table, apart from the encoder, which is written from the patterns.
-/
namespace Sys2Proof.Laws.TableRow

/-- The mask and the match of an instruction's row (R74). -/
def row : Instr → Word × Word
  | .cls => (0xFFFF#16, 0x00E0#16)
  | .ret => (0xFFFF#16, 0x00EE#16)
  | .sys _ => (0xF000#16, 0x0000#16)
  | .jp _ => (0xF000#16, 0x1000#16)
  | .call _ => (0xF000#16, 0x2000#16)
  | .seImm _ _ => (0xF000#16, 0x3000#16)
  | .sneImm _ _ => (0xF000#16, 0x4000#16)
  | .seReg _ _ => (0xF00F#16, 0x5000#16)
  | .ldImm _ _ => (0xF000#16, 0x6000#16)
  | .addImm _ _ => (0xF000#16, 0x7000#16)
  | .ldReg _ _ => (0xF00F#16, 0x8000#16)
  | .orReg _ _ => (0xF00F#16, 0x8001#16)
  | .andReg _ _ => (0xF00F#16, 0x8002#16)
  | .xorReg _ _ => (0xF00F#16, 0x8003#16)
  | .addReg _ _ => (0xF00F#16, 0x8004#16)
  | .sub _ _ => (0xF00F#16, 0x8005#16)
  | .shr _ _ => (0xF00F#16, 0x8006#16)
  | .subn _ _ => (0xF00F#16, 0x8007#16)
  | .shl _ _ => (0xF00F#16, 0x800E#16)
  | .sneReg _ _ => (0xF00F#16, 0x9000#16)
  | .ldI _ => (0xF000#16, 0xA000#16)
  | .jpV0 _ => (0xF000#16, 0xB000#16)
  | .rnd _ _ => (0xF000#16, 0xC000#16)
  | .drw _ _ _ => (0xF000#16, 0xD000#16)
  | .skp _ => (0xF0FF#16, 0xE09E#16)
  | .sknp _ => (0xF0FF#16, 0xE0A1#16)
  | .ldVxDt _ => (0xF0FF#16, 0xF007#16)
  | .ldVxK _ => (0xF0FF#16, 0xF00A#16)
  | .ldDtVx _ => (0xF0FF#16, 0xF015#16)
  | .ldStVx _ => (0xF0FF#16, 0xF018#16)
  | .addI _ => (0xF0FF#16, 0xF01E#16)
  | .ldF _ => (0xF0FF#16, 0xF029#16)
  | .ldB _ => (0xF0FF#16, 0xF033#16)
  | .ldMemVx _ => (0xF0FF#16, 0xF055#16)
  | .ldVxMem _ => (0xF0FF#16, 0xF065#16)

/-- The word of the instruction has the fixed bits of its row. -/
def Statement (i : Instr) : Prop := encode i &&& (row i).1 = (row i).2

theorem address_class (c : Nibble) (nnn : Addr) : addressWord c nnn &&& 0xF000#16 = addressWord c 0#12 := by
  refine BitVec.eq_of_getLsbD_eq fun i hi => ?_
  simp only [addressWord, BitVec.getLsbD_and, BitVec.getLsbD_append]
  interval_cases i <;> simp

theorem byte_class (c : Nibble) (x : RegIx) (nn : Byte) : byteWord c x nn &&& 0xF000#16 = byteWord c 0#4 0#8 := by
  refine BitVec.eq_of_getLsbD_eq fun i hi => ?_
  simp only [byteWord, BitVec.getLsbD_and, BitVec.getLsbD_append]
  interval_cases i <;> simp

theorem selector_class (c : Nibble) (x : RegIx) (nn : Byte) : byteWord c x nn &&& 0xF0FF#16 = byteWord c 0#4 nn := by
  refine BitVec.eq_of_getLsbD_eq fun i hi => ?_
  simp only [byteWord, BitVec.getLsbD_and, BitVec.getLsbD_append]
  interval_cases i <;> simp

theorem nibble_class (c : Nibble) (x y : RegIx) (n : Nibble) : nibbleWord c x y n &&& 0xF000#16 = nibbleWord c 0#4 0#4 0#4 := by
  refine BitVec.eq_of_getLsbD_eq fun i hi => ?_
  simp only [nibbleWord, BitVec.getLsbD_and, BitVec.getLsbD_append]
  interval_cases i <;> simp

theorem nibble_selector (c : Nibble) (x y : RegIx) (n : Nibble) :
    nibbleWord c x y n &&& 0xF00F#16 = nibbleWord c 0#4 0#4 n := by
  refine BitVec.eq_of_getLsbD_eq fun i hi => ?_
  simp only [nibbleWord, BitVec.getLsbD_and, BitVec.getLsbD_append]
  interval_cases i <;> simp

theorem cls : Statement (.cls) := rfl
theorem ret : Statement (.ret) := rfl
theorem sys (nnn : Addr) : Statement (.sys nnn) := (address_class _ _).trans rfl
theorem jp (nnn : Addr) : Statement (.jp nnn) := (address_class _ _).trans rfl
theorem call (nnn : Addr) : Statement (.call nnn) := (address_class _ _).trans rfl
theorem seImm (x : RegIx) (nn : Byte) : Statement (.seImm x nn) := (byte_class _ _ _).trans rfl
theorem sneImm (x : RegIx) (nn : Byte) : Statement (.sneImm x nn) := (byte_class _ _ _).trans rfl
theorem seReg (x : RegIx) (y : RegIx) : Statement (.seReg x y) := (nibble_selector _ _ _ _).trans rfl
theorem ldImm (x : RegIx) (nn : Byte) : Statement (.ldImm x nn) := (byte_class _ _ _).trans rfl
theorem addImm (x : RegIx) (nn : Byte) : Statement (.addImm x nn) := (byte_class _ _ _).trans rfl
theorem ldReg (x : RegIx) (y : RegIx) : Statement (.ldReg x y) := (nibble_selector _ _ _ _).trans rfl
theorem orReg (x : RegIx) (y : RegIx) : Statement (.orReg x y) := (nibble_selector _ _ _ _).trans rfl
theorem andReg (x : RegIx) (y : RegIx) : Statement (.andReg x y) := (nibble_selector _ _ _ _).trans rfl
theorem xorReg (x : RegIx) (y : RegIx) : Statement (.xorReg x y) := (nibble_selector _ _ _ _).trans rfl
theorem addReg (x : RegIx) (y : RegIx) : Statement (.addReg x y) := (nibble_selector _ _ _ _).trans rfl
theorem sub (x : RegIx) (y : RegIx) : Statement (.sub x y) := (nibble_selector _ _ _ _).trans rfl
theorem shr (x : RegIx) (y : RegIx) : Statement (.shr x y) := (nibble_selector _ _ _ _).trans rfl
theorem subn (x : RegIx) (y : RegIx) : Statement (.subn x y) := (nibble_selector _ _ _ _).trans rfl
theorem shl (x : RegIx) (y : RegIx) : Statement (.shl x y) := (nibble_selector _ _ _ _).trans rfl
theorem sneReg (x : RegIx) (y : RegIx) : Statement (.sneReg x y) := (nibble_selector _ _ _ _).trans rfl
theorem ldI (nnn : Addr) : Statement (.ldI nnn) := (address_class _ _).trans rfl
theorem jpV0 (nnn : Addr) : Statement (.jpV0 nnn) := (address_class _ _).trans rfl
theorem rnd (x : RegIx) (nn : Byte) : Statement (.rnd x nn) := (byte_class _ _ _).trans rfl
theorem drw (x : RegIx) (y : RegIx) (n : Nibble) : Statement (.drw x y n) := (nibble_class _ _ _ _).trans rfl
theorem skp (x : RegIx) : Statement (.skp x) := (selector_class _ _ _).trans rfl
theorem sknp (x : RegIx) : Statement (.sknp x) := (selector_class _ _ _).trans rfl
theorem ldVxDt (x : RegIx) : Statement (.ldVxDt x) := (selector_class _ _ _).trans rfl
theorem ldVxK (x : RegIx) : Statement (.ldVxK x) := (selector_class _ _ _).trans rfl
theorem ldDtVx (x : RegIx) : Statement (.ldDtVx x) := (selector_class _ _ _).trans rfl
theorem ldStVx (x : RegIx) : Statement (.ldStVx x) := (selector_class _ _ _).trans rfl
theorem addI (x : RegIx) : Statement (.addI x) := (selector_class _ _ _).trans rfl
theorem ldF (x : RegIx) : Statement (.ldF x) := (selector_class _ _ _).trans rfl
theorem ldB (x : RegIx) : Statement (.ldB x) := (selector_class _ _ _).trans rfl
theorem ldMemVx (x : RegIx) : Statement (.ldMemVx x) := (selector_class _ _ _).trans rfl
theorem ldVxMem (x : RegIx) : Statement (.ldVxMem x) := (selector_class _ _ _).trans rfl

end Sys2Proof.Laws.TableRow
end

