-- ==== Sys2Proof/Tests/Slice0.lean ====
section
/-!
SUPPORT. Tests: well-formedness, a word for every constructor written out bit by bit from the patterns of 30_encoding.md R74, and
single frames from the vectors of 95_test_vectors.md (each test names its vector). After them, the witnesses of the statements' hypotheses.
-/
namespace Sys2Proof.Tests

open Sys2Proof.Machine

/-! ### Well-formedness: SYS names no word that CLS or RET names (R71, R74) -/

theorem test_wf_sys : (Instr.sys 0x123#12).wellFormed = true := by decide
theorem test_wf_sys_refuses_cls : (Instr.sys 0x0E0#12).wellFormed = false := by decide
theorem test_wf_sys_refuses_ret : (Instr.sys 0x0EE#12).wellFormed = false := by decide

/-! ### Decoding, one word per constructor -/

theorem test_decode_cls : decodeWord .fault 0b0000000011100000#16 = .instr (.cls) := by decide
theorem test_decode_ret : decodeWord .fault 0b0000000011101110#16 = .instr (.ret) := by decide
theorem test_decode_jp : decodeWord .fault 0b0001101010111100#16 = .instr (.jp 0xABC#12) := by decide
theorem test_decode_call : decodeWord .fault 0b0010001101000101#16 = .instr (.call 0x345#12) := by decide
theorem test_decode_seImm : decodeWord .fault 0b0011000101000010#16 = .instr (.seImm 1#4 0x42#8) := by decide
theorem test_decode_sneImm : decodeWord .fault 0b0100000101000010#16 = .instr (.sneImm 1#4 0x42#8) := by decide
theorem test_decode_seReg : decodeWord .fault 0b0101000100100000#16 = .instr (.seReg 1#4 2#4) := by decide
theorem test_decode_ldImm : decodeWord .fault 0b0110101000101111#16 = .instr (.ldImm 0xA#4 0x2F#8) := by decide
theorem test_decode_addImm : decodeWord .fault 0b0111000100000011#16 = .instr (.addImm 1#4 3#8) := by decide
theorem test_decode_ldReg : decodeWord .fault 0b1000000100100000#16 = .instr (.ldReg 1#4 2#4) := by decide
theorem test_decode_orReg : decodeWord .fault 0b1000000100100001#16 = .instr (.orReg 1#4 2#4) := by decide
theorem test_decode_andReg : decodeWord .fault 0b1000000100100010#16 = .instr (.andReg 1#4 2#4) := by decide
theorem test_decode_xorReg : decodeWord .fault 0b1000000100100011#16 = .instr (.xorReg 1#4 2#4) := by decide
theorem test_decode_addReg : decodeWord .fault 0b1000000100100100#16 = .instr (.addReg 1#4 2#4) := by decide
theorem test_decode_sub : decodeWord .fault 0b1000000100100101#16 = .instr (.sub 1#4 2#4) := by decide
theorem test_decode_shr : decodeWord .fault 0b1000000101010110#16 = .instr (.shr 1#4 5#4) := by decide
theorem test_decode_subn : decodeWord .fault 0b1000000100100111#16 = .instr (.subn 1#4 2#4) := by decide
theorem test_decode_shl : decodeWord .fault 0b1000000101011110#16 = .instr (.shl 1#4 5#4) := by decide
theorem test_decode_sneReg : decodeWord .fault 0b1001000100100000#16 = .instr (.sneReg 1#4 2#4) := by decide
theorem test_decode_ldI : decodeWord .fault 0b1010000100100011#16 = .instr (.ldI 0x123#12) := by decide
theorem test_decode_jpV0 : decodeWord .fault 0b1011001100000000#16 = .instr (.jpV0 0x300#12) := by decide
theorem test_decode_rnd : decodeWord .fault 0b1100001100001111#16 = .instr (.rnd 3#4 0x0F#8) := by decide
theorem test_decode_drw : decodeWord .fault 0b1101101010110101#16 = .instr (.drw 0xA#4 0xB#4 5#4) := by decide
theorem test_decode_skp : decodeWord .fault 0b1110010110011110#16 = .instr (.skp 5#4) := by decide
theorem test_decode_sknp : decodeWord .fault 0b1110010110100001#16 = .instr (.sknp 5#4) := by decide
theorem test_decode_ldVxDt : decodeWord .fault 0b1111010100000111#16 = .instr (.ldVxDt 5#4) := by decide
theorem test_decode_ldVxK : decodeWord .fault 0b1111001000001010#16 = .instr (.ldVxK 2#4) := by decide
theorem test_decode_ldDtVx : decodeWord .fault 0b1111010100010101#16 = .instr (.ldDtVx 5#4) := by decide
theorem test_decode_ldStVx : decodeWord .fault 0b1111010100011000#16 = .instr (.ldStVx 5#4) := by decide
theorem test_decode_addI : decodeWord .fault 0b1111001000011110#16 = .instr (.addI 2#4) := by decide
theorem test_decode_ldF : decodeWord .fault 0b1111111100101001#16 = .instr (.ldF 0xF#4) := by decide
theorem test_decode_ldB : decodeWord .fault 0b1111000000110011#16 = .instr (.ldB 0#4) := by decide
theorem test_decode_ldMemVx : decodeWord .fault 0b1111010101010101#16 = .instr (.ldMemVx 5#4) := by decide
theorem test_decode_ldVxMem : decodeWord .fault 0b1111010101100101#16 = .instr (.ldVxMem 5#4) := by decide
theorem test_decode_sys : decodeWord .nop 0b0000000100100011#16 = .instr (.sys 0x123#12) := by decide

/-! ### Illegal words (E1, E2, E4 to E9) -/

theorem test_illegal_zero : decodeWord .fault 0x0000#16 = .decodeError 0x0000#16 := by decide
theorem test_illegal_sys : decodeWord .fault 0x0123#16 = .decodeError 0x0123#16 := by decide
theorem test_illegal_class5 : decodeWord .fault 0x5121#16 = .decodeError 0x5121#16 := by decide
theorem test_illegal_class9 : decodeWord .fault 0x9121#16 = .decodeError 0x9121#16 := by decide
theorem test_illegal_class8 : decodeWord .fault 0x8128#16 = .decodeError 0x8128#16 := by decide
theorem test_illegal_class8_low : decodeWord .fault 0x800F#16 = .decodeError 0x800F#16 := by decide
theorem test_illegal_classE : decodeWord .fault 0xE000#16 = .decodeError 0xE000#16 := by decide
theorem test_illegal_classF : decodeWord .fault 0xF000#16 = .decodeError 0xF000#16 := by decide
theorem test_decode_short_bytes : decodeBytes .fault [0x12#8] = (.truncated, [0x12#8]) := by decide
theorem test_decode_big_endian : decodeBytes .fault [0x1A#8, 0xBC#8, 0x00#8] = (.instr (.jp 0xABC#12), [0x00#8]) := by decide
theorem test_table_word : decodeTableWord 16 0x8014 = some (.addReg 0#4 1#4) := by decide

/-! ### Single frames -/

/-- The reset state with the vectors' inputs: no key down, rnd as R27 has it. -/
def start : State := { State.reset with inputs := [{ poll := .keys 0#16, rnd := 0xA5#8, kchoice := 0#4 }] }

/-- The next state, if there is one. -/
def answer : Result → Option State
  | .next t => some t
  | _ => none

/-- The frame that runs the word. -/
def after (w : Nat) (s : State) : Option State := answer (step (s.withFetchWord 16 w))

/-- The frame that runs the word with the given keys down. -/
def afterKeys (k : KeyMap) (w : Nat) (s : State) : Option State :=
  answer (step { s.withFetchWord 16 w with inputs := [{ poll := .keys k, rnd := 0#8, kchoice := 0#4 }] })

/-- `start` under VF_ORDER = result_last. -/
def resultLast : State := { start with config := { defaultConfig with vfOrder := .resultLast } }

/-- The core with the image loaded, under the default parameters. -/
def loaded (image : List Byte) : State := (State.load defaultConfig image start.inputs).getD start

/-- `start` with one pixel lit. -/
def litAt (y x : Nat) : State := { start with fb := (flipPixel y x (clearScreen, false)).1 }

/-- The pixels of a row that are lit. -/
def litRow (t : State) (y : Nat) : List Nat := (List.range 64).filter fun x => pixel t.fb y x

/-- E3. -/
theorem test_sys_nop :
    (after 0x0123 start).map (fun t => (t.pc, t.status)) = some (0x202#16, .running) := by decide

/-- E2. -/
theorem test_sys_illegal :
    (answer (step (loaded [0x01#8, 0x23#8]))).map (fun t => (t.pc, t.status)) = some (0x200#16, .faulted (.decodeError 0x0123#16)) := by decide

/-- C1. -/
theorem test_jp :
    (after 0x1ABC start).map (fun t => t.pc) = some 0xABC#16 := by decide

/-- C2. -/
theorem test_call_pushes :
    (after 0x2345 start).map (fun t => (t.pc, t.stack)) = some (0x345#16, [0x202#16]) := by decide

/-- C5. -/
theorem test_call_full :
    (after 0x2200 (start.setStack (List.replicate 16 0x202#16))).map (fun t => (t.sp, t.status)) = some (16, .faulted (.stackOverflow 0x200#16)) := by decide

/-- C3, frame 2. -/
theorem test_ret_pops :
    (after 0x00EE (start.setStack [0x202#16])).map (fun t => (t.pc, t.stack)) = some (0x202#16, []) := by decide

/-- C4. -/
theorem test_ret_empty :
    (after 0x00EE start).map (fun t => (t.pc, t.status)) = some (0x200#16, .faulted (.stackUnderflow 0x200#16)) := by decide

/-- C7. -/
theorem test_se_imm_taken :
    (after 0x3142 (start.setReg 1#4 0x42#8)).map (fun t => t.pc) = some 0x204#16 := by decide

/-- C8. -/
theorem test_se_imm_not_taken :
    (after 0x3142 (start.setReg 1#4 0x41#8)).map (fun t => t.pc) = some 0x202#16 := by decide

/-- C9. -/
theorem test_sne_imm_not_taken :
    (after 0x4142 (start.setReg 1#4 0x42#8)).map (fun t => t.pc) = some 0x202#16 := by decide

/-- C10. -/
theorem test_sne_imm_taken :
    (after 0x4142 (start.setReg 1#4 0x41#8)).map (fun t => t.pc) = some 0x204#16 := by decide

/-- C11. -/
theorem test_se_reg_taken :
    (after 0x5120 ((start.setReg 1#4 0x07#8).setReg 2#4 0x07#8)).map (fun t => t.pc) = some 0x204#16 := by decide

/-- C12. -/
theorem test_se_reg_not_taken :
    (after 0x5120 ((start.setReg 1#4 0x07#8).setReg 2#4 0x08#8)).map (fun t => t.pc) = some 0x202#16 := by decide

/-- C13. -/
theorem test_sne_reg_not_taken :
    (after 0x9120 ((start.setReg 1#4 0x07#8).setReg 2#4 0x07#8)).map (fun t => t.pc) = some 0x202#16 := by decide

/-- C14. -/
theorem test_sne_reg_taken :
    (after 0x9120 ((start.setReg 1#4 0x07#8).setReg 2#4 0x08#8)).map (fun t => t.pc) = some 0x204#16 := by decide

/-- C16. -/
theorem test_jp_v0_not_wrapped :
    (after 0xBFFF (start.setReg 0#4 0xFF#8)).map (fun t => t.pc) = some 0x10FE#16 := by decide

/-- C15. -/
theorem test_jp_v0 :
    (after 0xB300 (start.setReg 0#4 0x10#8)).map (fun t => t.pc) = some 0x310#16 := by decide

/-- R1. -/
theorem test_ld_imm :
    (after 0x6A2F start).map (fun t => t.reg 0xA#4) = some 0x2F#8 := by decide

/-- R2. -/
theorem test_add_imm_no_flag :
    (after 0x7103 ((start.setReg 1#4 0xFE#8).setReg 0xF#4 0x55#8)).map (fun t => (t.reg 1#4, t.reg vf)) = some (0x01#8, 0x55#8) := by decide

/-- R3. -/
theorem test_add_imm_to_vf :
    (after 0x7FFF (start.setReg 0xF#4 0x01#8)).map (fun t => t.reg vf) = some 0x00#8 := by decide

/-- R4. -/
theorem test_ld_reg :
    (after 0x8120 (start.setReg 2#4 0x09#8)).map (fun t => t.reg 1#4) = some 0x09#8 := by decide

/-- R5. -/
theorem test_or_keeps_vf :
    (after 0x8121 (((start.setReg 1#4 0xF0#8).setReg 2#4 0x0F#8).setReg 0xF#4 0x77#8)).map (fun t => (t.reg 1#4, t.reg vf)) = some (0xFF#8, 0x77#8) := by decide

/-- R6. -/
theorem test_and :
    (after 0x8122 ((start.setReg 1#4 0xF0#8).setReg 2#4 0x3C#8)).map (fun t => t.reg 1#4) = some 0x30#8 := by decide

/-- R7. -/
theorem test_xor :
    (after 0x8123 ((start.setReg 1#4 0xF0#8).setReg 2#4 0x3C#8)).map (fun t => t.reg 1#4) = some 0xCC#8 := by decide

/-- R8. -/
theorem test_xor_self :
    (after 0x8113 (start.setReg 1#4 0x5A#8)).map (fun t => t.reg 1#4) = some 0x00#8 := by decide

/-- W1. -/
theorem test_add_carries :
    (after 0x8014 ((start.setReg 0#4 0xFA#8).setReg 1#4 0x0A#8)).map (fun t => (t.reg 0#4, t.reg vf, t.pc)) = some (0x04#8, 0x01#8, 0x202#16) := by decide

/-- R13. -/
theorem test_add_to_vf_flag_last :
    (after 0x8FF4 (start.setReg 0xF#4 0x90#8)).map (fun t => t.reg vf) = some 0x01#8 := by decide

/-- W4. -/
theorem test_sub_borrows :
    (after 0x8015 ((start.setReg 0#4 0x03#8).setReg 1#4 0x05#8)).map (fun t => (t.reg 0#4, t.reg vf)) = some (0xFE#8, 0x00#8) := by decide

/-- R14. -/
theorem test_sub_equal :
    (after 0x8015 ((start.setReg 0#4 0x07#8).setReg 1#4 0x07#8)).map (fun t => (t.reg 0#4, t.reg vf)) = some (0x00#8, 0x01#8) := by decide

/-- E10. -/
theorem test_shr_ignores_y :
    (after 0x8156 ((start.setReg 1#4 0x04#8).setReg 5#4 0xFF#8)).map (fun t => (t.reg 1#4, t.reg vf)) = some (0x02#8, 0x00#8) := by decide

/-- R19. -/
theorem test_shr_odd :
    (after 0x8106 (start.setReg 1#4 0x05#8)).map (fun t => (t.reg 1#4, t.reg vf)) = some (0x02#8, 0x01#8) := by decide

/-- R16. -/
theorem test_subn :
    (after 0x8127 ((start.setReg 1#4 0x03#8).setReg 2#4 0x05#8)).map (fun t => (t.reg 1#4, t.reg vf)) = some (0x02#8, 0x01#8) := by decide

/-- R17. -/
theorem test_subn_borrows :
    (after 0x8127 ((start.setReg 1#4 0x05#8).setReg 2#4 0x03#8)).map (fun t => (t.reg 1#4, t.reg vf)) = some (0xFE#8, 0x00#8) := by decide

/-- R23. -/
theorem test_shl :
    (after 0x810E (start.setReg 1#4 0x81#8)).map (fun t => (t.reg 1#4, t.reg vf)) = some (0x02#8, 0x01#8) := by decide

/-- R26. -/
theorem test_shl_to_vf_result_last :
    (after 0x8F0E (resultLast.setReg 0xF#4 0x81#8)).map (fun t => t.reg vf) = some 0x02#8 := by decide

/-- R27. -/
theorem test_rnd :
    (after 0xC30F start).map (fun t => t.reg 3#4) = some 0x05#8 := by decide

/-- M1. -/
theorem test_ld_i :
    (after 0xA123 start).map (fun t => t.index) = some 0x123#16 := by decide

/-- M2. -/
theorem test_add_i_no_flag :
    (after 0xF21E (((start.setIndex 0xFFF#16).setReg 2#4 0x02#8).setReg 0xF#4 0x33#8)).map (fun t => (t.index, t.reg vf)) = some (0x1001#16, 0x33#8) := by decide

/-- M3. -/
theorem test_add_i_wraps :
    (after 0xF21E ((start.setIndex 0xFFFF#16).setReg 2#4 0x01#8)).map (fun t => t.index) = some 0x0000#16 := by decide

/-- M5. -/
theorem test_ld_f :
    (after 0xFF29 (start.setReg 0xF#4 0x0F#8)).map (fun t => t.index) = some 0x4B#16 := by decide

/-- M4. -/
theorem test_ld_f_invalid :
    (after 0xF029 (start.setReg 0#4 0x10#8)).map (fun t => (t.index, t.status)) = some (0x0000#16, .faulted (.invalidOperand 0x200#16 0x10#8)) := by decide

/-- M8. -/
theorem test_ld_b_at_the_top :
    (after 0xF033 ((start.setIndex 0xFFD#16).setReg 0#4 0x07#8)).map (fun t => (t.readByte 0xFFD, t.readByte 0xFFE, t.readByte 0xFFF)) = some (0x00#8, 0x00#8, 0x07#8) := by decide

/-- M9, F2. -/
theorem test_ld_b_beyond :
    (after 0xF033 ((start.setIndex 0xFFE#16).setDt 0x05#8)).map (fun t => (t.pc, t.dt, t.status)) = some (0x200#16, 0x05#8, .faulted (.memoryFault 0xFFE 3)) := by decide

/-- M10. -/
theorem test_ld_mem_vx_at_the_top :
    (after 0xFF55 ((start.setIndex 0xFF0#16).setReg 0xF#4 0xAA#8)).map (fun t => (t.readByte 0xFFF, t.index)) = some (0xAA#8, 0x1000#16) := by decide

/-- M11. -/
theorem test_ld_mem_vx_beyond :
    (after 0xFF55 (start.setIndex 0xFF1#16)).map (fun t => (t.index, t.status)) = some (0xFF1#16, .faulted (.memoryFault 0xFF1 16)) := by decide

/-- M12. -/
theorem test_ld_vx_mem_one :
    (after 0xF065 start).map (fun t => (t.reg 0#4, t.reg 1#4, t.index)) = some (0xF0#8, 0x00#8, 0x001#16) := by decide

/-- M13. -/
theorem test_ld_vx_mem_all :
    (after 0xFF65 start).map (fun t => (t.reg 1#4, t.reg 5#4, t.reg 0xC#4, t.reg vf, t.index)) = some (0x90#8, 0x20#8, 0xF0#8, 0xF0#8, 0x010#16) := by decide

/-- D9. -/
theorem test_cls :
    (after 0x00E0 ((litAt 3 5).setReg 0xF#4 0x12#8)).map (fun t => (litRow t 3, t.reg vf, decide (t.renderOut = some clearScreen))) = some ([], 0x12#8, true) := by decide

/-- D2. -/
theorem test_drw_clips_at_the_right :
    (after 0xD011 (start.setReg 0#4 0x3E#8)).map (fun t => (litRow t 0, t.reg vf)) = some ([62, 63], 0x00#8) := by decide

/-- D7. -/
theorem test_drw_collides :
    (after 0xD011 ((litAt 0 0).setIndex 0x14#16)).map (fun t => (litRow t 0, t.reg vf, t.dirty)) = some ([3], 0x01#8, false) := by decide

/-- K1. -/
theorem test_skp_down :
    (afterKeys 0x0020#16 0xE59E (start.setReg 5#4 0x05#8)).map (fun t => t.pc) = some 0x204#16 := by decide

/-- K5. -/
theorem test_skp_invalid :
    (afterKeys 0#16 0xE59E (start.setReg 5#4 0x10#8)).map (fun t => (t.pc, t.status)) = some (0x200#16, .faulted (.invalidOperand 0x200#16 0x10#8)) := by decide

/-- K3. -/
theorem test_sknp_down :
    (afterKeys 0x0020#16 0xE5A1 (start.setReg 5#4 0x05#8)).map (fun t => t.pc) = some 0x202#16 := by decide

/-- K4. -/
theorem test_sknp_up :
    (afterKeys 0#16 0xE5A1 (start.setReg 5#4 0x05#8)).map (fun t => t.pc) = some 0x204#16 := by decide

/-- W10, frame 1. -/
theorem test_ld_vx_k_captures :
    (afterKeys 0x0008#16 0xF20A start).map (fun t => (t.wait, t.pc)) = some (.waiting 2#4 0x0008#16, 0x202#16) := by decide

/-- T1. -/
theorem test_ld_vx_dt :
    (after 0xF507 (start.setDt 0x09#8)).map (fun t => (t.reg 5#4, t.dt)) = some (0x09#8, 0x08#8) := by decide

/-- T2. -/
theorem test_ld_dt_vx :
    (after 0xF515 (start.setReg 5#4 0x05#8)).map (fun t => (t.dt, t.audioOut)) = some (0x04#8, some .none) := by decide

/-- T3. -/
theorem test_ld_st_vx_one :
    (after 0xF518 (start.setReg 5#4 0x01#8)).map (fun t => (t.st, t.audioOut)) = some (0x00#8, some .stop) := by decide

/-- T4. -/
theorem test_ld_st_vx_three :
    (after 0xF518 (start.setReg 5#4 0x03#8)).map (fun t => (t.st, t.audioOut)) = some (0x02#8, some .play) := by decide

/-! ### Frames that execute no instruction -/

/-- A frame of a waiting state with the given keys down. -/
def waitFrame (captured now : KeyMap) (choice : Nibble) : Option State :=
  answer (step { start with wait := .waiting 2#4 captured, inputs := [{ poll := .keys now, rnd := 0#8, kchoice := choice }] })

/-- W10b, frame 3: an unrelated key seen down joins the captured set. -/
theorem test_wait_unions_keys : (waitFrame 0x0008#16 0x0208#16 0#4).map (fun t => t.wait) = some (.waiting 2#4 0x0208#16) := by
  decide

/-- W10b, frame 4: its release ends the wait. -/
theorem test_wait_released : (waitFrame 0x0208#16 0x0008#16 0#4).map (fun t => (t.reg 2#4, t.wait, t.pc)) =
    some (0x09#8, .idle, 0x200#16) := by decide

/-- K6: both keys released, the choice lowest. -/
theorem test_wait_lowest_choice : (waitFrame 0x0208#16 0#16 0#4).map (fun t => t.reg 2#4) = some 0x03#8 := by decide

/-- K6: both keys released, the choice highest. -/
theorem test_wait_highest_choice : (waitFrame 0x0208#16 0#16 9#4).map (fun t => t.reg 2#4) = some 0x09#8 := by decide

/-- F1: Stop ends the run before anything else. -/
theorem test_stop :
    (answer (step { start.withFetchWord 16 0x6001 with inputs := [{ poll := .stop, rnd := 0#8, kchoice := 0#4 }] })).map
      (fun t => (t.status, t.pc, t.audioOut)) = some (.stopped, 0x200#16, none) := by decide

/-- C17: the image window ends with the image. -/
theorem test_fetch_beyond_the_image :
    (answer (step ({ start with imageLen := 2 }.setPc 0x202#16))).map (fun t => t.status) =
      some (.faulted (.memoryFault 0x202 2)) := by decide

/-- C18: the memory window admits the reset fill behind it. -/
theorem test_fetch_beyond_the_image_in_memory :
    (answer (step ({ start with imageLen := 2, config := { defaultConfig with fetchWindow := .memory } }.setPc 0x202#16))).map
      (fun t => t.status) = some (.faulted (.decodeError 0x0000#16)) := by decide

/-- F3: a terminal state takes no step. -/
theorem test_terminal_takes_no_step : step (start.setStatus .stopped) = .fault .stopped := by rfl

/-! ## Witnesses: for every statement with hypotheses, states and operands that meet them, each clause at a boundary value -/

/-- `start` with one input fixed. -/
def polled (p : Poll) (choice : Nibble) (s : State) : State := { s with inputs := [{ poll := p, rnd := 0#8, kchoice := choice }] }

/-- A state that fetches the word and polls a keymap. -/
def fetching (w : Nat) : State := start.withFetchWord 16 w

/-- `start` with bytes in memory at 0x300. -/
def stored : State := start.writeBytes 0x300 [0x12#8, 0x34#8]

/-! ### Decoding -/

theorem witness_DecodingAnEncodedInstruction_plain :
    (Instr.jp 0xFFF#12).wellFormed = true ∧ (SysPolicy.fault = .nop ∨ ∀ nnn, Instr.jp 0xFFF#12 ≠ .sys nnn) := ⟨by decide, .inr (fun _ h => by cases h)⟩

theorem witness_DecodingAnEncodedInstruction_sys :
    (Instr.sys 0x0E1#12).wellFormed = true ∧ (SysPolicy.nop = .nop ∨ ∀ nnn, Instr.sys 0x0E1#12 ≠ .sys nnn) := ⟨by decide, .inl rfl⟩

theorem witness_EncodingADecodedWord :
    decodeWord .nop 0x00EF#16 = .instr (.sys 0x0EF#12) ∧ decodeWord .fault 0xFF65#16 = .instr (.ldVxMem 0xF#4) := by decide

theorem witness_ExactlyTheIllegalWords_each_class :
    [0x0000#16, 0x00E1#16, 0x5001#16, 0x8008#16, 0x800D#16, 0x800F#16, 0x9FFF#16, 0xE09D#16, 0xE0A2#16, 0xF008#16, 0xF0FF#16].all
      (fun w => decodeWord .fault w = .decodeError w) = true := by decide

theorem witness_ExactlyTheIllegalWords_neighbours :
    [0x00E0#16, 0x00EE#16, 0x5000#16, 0x8007#16, 0x800E#16, 0x9FF0#16, 0xE09E#16, 0xE0A1#16, 0xF007#16, 0xF065#16].all
      (fun w => decodeWord .fault w ≠ .decodeError w) = true := by decide

/-! ### Control flow -/

theorem witness_CallPushesTheReturnAddressAndJumps_room :
    (start.setStack (List.replicate 15 0x202#16)).config.stackLimit ≠ some (start.setStack (List.replicate 15 0x202#16)).sp := by decide

theorem witness_CallPushesTheReturnAddressAndJumps_unbounded :
    ({ start with config := { defaultConfig with stackLimit := none } } : State).config.stackLimit ≠ some start.sp := by decide

theorem witness_CallPushesTheReturnAddressAndJumps_full :
    (start.setStack (List.replicate 16 0x202#16)).config.stackLimit = some (start.setStack (List.replicate 16 0x202#16)).sp := by decide

theorem witness_RetPopsTheReturnAddress_one :
    (start.setStack [0x202#16]).stack = 0x202#16 :: [] := by decide

theorem witness_RetPopsTheReturnAddress_empty :
    start.sp = 0 := by decide

theorem witness_RetUndoesCall :
    ∃ t, start.Running ∧ exec (.call 0x345#12) start = .next t ∧ t.Running := ⟨_, by decide, rfl, by decide⟩

theorem witness_SysOnlyAdvancesPc :
    0x000#12 ≠ 0x0E0#12 ∧ 0x000#12 ≠ 0x0EE#12 ∧ 0x0EF#12 ≠ 0x0E0#12 ∧ 0x0EF#12 ≠ 0x0EE#12 := by decide

theorem witness_ImmediateSkips_both :
    start.reg 1#4 = 0x00#8 ∧ start.reg 1#4 ≠ 0x01#8 := by decide

theorem witness_RegisterSkips_both :
    start.reg 1#4 = start.reg 2#4 ∧ (start.setReg 1#4 7#8).reg 1#4 ≠ (start.setReg 1#4 7#8).reg 2#4 := by decide

/-! ### Register operations -/

theorem witness_AddRegistersSetsTheCarry_no_carry :
    ¬((((start.setReg 1#4 0xFE#8).setReg 2#4 0x01#8).reg 1#4).toNat +
      (((start.setReg 1#4 0xFE#8).setReg 2#4 0x01#8).reg 2#4).toNat > 255) := by decide

theorem witness_AddRegistersSetsTheCarry_carry :
    (((start.setReg 1#4 0xFF#8).setReg 2#4 0x01#8).reg 1#4).toNat +
      (((start.setReg 1#4 0xFF#8).setReg 2#4 0x01#8).reg 2#4).toNat > 255 := by decide

theorem witness_AddRegistersSetsTheCarry_vf_orders :
    vf = 0xF#4 ∧ start.config.vfOrder = .flagLast ∧ resultLast.config.vfOrder = .resultLast := by decide

theorem witness_SubtractionsSetNotBorrow :
    ∃ a b, a = ((start.setReg 1#4 7#8).reg 1#4).toNat ∧ b = ((start.setReg 1#4 7#8).reg 2#4).toNat ∧ a ≥ b ∧ ¬b ≥ a := ⟨_, _, rfl, rfl, by decide⟩

theorem witness_SubtractionsSetNotBorrow_equal :
    ∃ a b, a = (start.reg 1#4).toNat ∧ b = (start.reg 2#4).toNat ∧ a ≥ b ∧ b ≥ a := ⟨_, _, rfl, rfl, by decide⟩

theorem witness_OnlyRndReadsTheDraw :
    ∃ t, (∀ x nn, Instr.cls ≠ .rnd x nn) ∧ exec .cls start = .next t := ⟨_, fun _ _ h => (by cases h), rfl⟩

/-! ### Memory -/

theorem witness_LdFPointsAtTheGlyph_digit :
    ((start.setReg 0#4 0x0F#8).reg 0#4).toNat < 16 := by decide

theorem witness_LdFPointsAtTheGlyph_no_digit :
    16 ≤ ((start.setReg 0#4 0x10#8).reg 0#4).toNat := by decide

theorem witness_LdBStoresTheDecimalDigits_inside :
    ∃ v, v = ((start.setIndex 0xFFD#16).reg 0#4).toNat ∧ (start.setIndex 0xFFD#16).index.toNat + 2 ≤ 0xFFF := ⟨_, rfl, by decide⟩

theorem witness_LdBStoresTheDecimalDigits_beyond :
    ∃ v, v = ((start.setIndex 0xFFE#16).reg 0#4).toNat ∧ 0xFFF < (start.setIndex 0xFFE#16).index.toNat + 2 := ⟨_, rfl, by decide⟩

theorem witness_LdMemVxDumpsTheRegisters_inside :
    (start.setIndex 0xFF0#16).index.toNat + (0xF#4).toNat ≤ 0xFFF := by decide

theorem witness_LdMemVxDumpsTheRegisters_beyond :
    0xFFF < (start.setIndex 0xFF1#16).index.toNat + (0xF#4).toNat := by decide

theorem witness_LdVxMemLoadsTheRegisters_inside :
    (start.setIndex 0xFFF#16).index.toNat + (0#4).toNat ≤ 0xFFF ∧ (0#4).toNat < (1#4).toNat := by decide

theorem witness_LdVxMemLoadsTheRegisters_beyond :
    0xFFF < (start.setIndex 0xFFF#16).index.toNat + (1#4).toNat := by decide

theorem witness_LoadingADumpRestoresTheRegisters :
    ∃ t u : State, (start.setIndex 0xFFA#16).index.toNat + (5#4).toNat ≤ 0xFFF ∧ exec (.ldMemVx 5#4) (start.setIndex 0xFFA#16) = .next t ∧
      u.index = (start.setIndex 0xFFA#16).index ∧ ∀ a, u.readByte a = t.readByte a := ⟨_, State.setIndex _ 0xFFA#16, by decide, rfl, by decide, fun _ => rfl⟩

theorem witness_MemoryPrimitivesAccessTheirRange_inside :
    (1 = 0 ∨ 0xFFF + 1 - 1 ≤ 0xFFF) ∧ (0 = 0 ∨ 0x5000 + 0 - 1 ≤ 0xFFF) ∧ (([0x12#8].length = 0) ∨ 0xFFF + [0x12#8].length - 1 ≤ 0xFFF) := by decide

theorem witness_MemoryPrimitivesAccessTheirRange_beyond :
    (2 > 0 ∧ 0xFFF + 2 - 1 > 0xFFF) ∧ ([0x12#8].length > 0 ∧ 0x1000 + [0x12#8].length - 1 > 0xFFF) := by decide

/-- A register dump at 0x200, with a JP in V0 and V1. -/
def dumping : State := ((fetching 0xF155).setReg 0#4 0x12#8).setIndex 0x200#16

theorem witness_FetchSeesWhatAnInstructionStored :
    ∃ t, dumping.Running ∧ exec (.ldMemVx 1#4) dumping = .next t ∧ t.Running ∧ (0#4).toNat < (1#4).toNat ∧
      (0x200#16).toNat = dumping.index.toNat + (0#4).toNat ∧ dumping.fetchAdmitted (0x200#16).toNat = true ∧
      decodeWord dumping.config.sysPolicy (dumping.reg 0#4 ++ dumping.reg (0#4 + 1#4)) = .instr (.jp 0x200#12) := ⟨_, by decide, rfl, by decide, by decide, by decide, by decide, by decide⟩

/-! ### Display -/

theorem witness_DrwFlipsThePixels_inside :
    (5#4 = 0#4 ∨ (start.setIndex 0xFFB#16).index.toNat + (5#4).toNat - 1 ≤ 0xFFF) ∧ (0#4 = 0#4 ∨ 0x1000 + (0#4).toNat - 1 ≤ 0xFFF) := by decide

theorem witness_DrwFlipsThePixels_beyond :
    1#4 ≠ 0#4 ∧ 0xFFF < (start.setIndex 0x1000#16).index.toNat + (1#4).toNat - 1 := by decide

theorem witness_DrwFlipsThePixels_collision :
    ∃ t, exec (.drw 0#4 1#4 1#4) (litAt 0 0) = .next t ∧
      ∃ yy xx, yy < 32 ∧ xx < 64 ∧ pixel (litAt 0 0).fb yy xx = true ∧ pixel t.fb yy xx = false := ⟨_, rfl, 0, 0, by decide⟩

theorem witness_DrwFlipsThePixels_no_collision :
    ∃ t, exec (.drw 0#4 1#4 1#4) start = .next t ∧
      ∀ yy xx, yy < 32 → xx < 64 → pixel start.fb yy xx = true → pixel t.fb yy xx = true := ⟨_, rfl, fun yy xx _ _ h => by
      have : pixel start.fb yy xx = false := by simp [pixel, start, State.reset]
      rw [this] at h
      cases h⟩

theorem witness_DrawingTwiceRestoresTheScreen_lit :
    ∃ t, 0#4 ≠ vf ∧ 1#4 ≠ vf ∧ start.Running ∧ exec (.drw 0#4 1#4 1#4) start = .next t ∧ t.Running ∧
      ∃ yy xx, yy < 32 ∧ xx < 64 ∧ pixel start.fb yy xx = false ∧ pixel t.fb yy xx = true := ⟨_, by decide, by decide, by decide, rfl, by decide, 0, 3, by decide⟩

theorem witness_DrawingTwiceRestoresTheScreen_unlit :
    ∃ t, 0#4 ≠ vf ∧ 1#4 ≠ vf ∧ start.Running ∧ exec (.drw 0#4 1#4 0#4) start = .next t ∧ t.Running ∧
      ∀ yy xx, yy < 32 → xx < 64 → pixel t.fb yy xx = true → pixel start.fb yy xx = true := ⟨_, by decide, by decide, by decide, rfl, by decide, fun _ _ _ _ h => h⟩

/-! ### Input -/

theorem witness_KeySkipsTestTheKeymap_key :
    ((start.setReg 5#4 0x0F#8).reg 5#4).toNat < 16 := by decide

theorem witness_KeySkipsTestTheKeymap_no_key :
    16 ≤ ((start.setReg 5#4 0x10#8).reg 5#4).toNat := by decide

/-! ### Every instruction -/

theorem witness_RegistersChangeOnlyAsDestinationOrFlag_destination :
    ∃ t, exec (.ldImm 1#4 7#8) start = .next t ∧ t.reg 1#4 ≠ start.reg 1#4 := ⟨_, rfl, by decide⟩

theorem witness_RegistersChangeOnlyAsDestinationOrFlag_flag :
    ∃ t, exec (.sub 1#4 2#4) start = .next t ∧ t.reg vf ≠ start.reg vf := ⟨_, rfl, by decide⟩

theorem witness_ControlStateChangesOnlyByItsInstructions_index :
    ∃ t, exec (.ldI 0x300#12) start = .next t ∧ t.index ≠ start.index := ⟨_, rfl, by decide⟩

theorem witness_ControlStateChangesOnlyByItsInstructions_stack :
    ∃ t, exec (.call 0x300#12) start = .next t ∧ t.stack ≠ start.stack := ⟨_, rfl, by decide⟩

theorem witness_ControlStateChangesOnlyByItsInstructions_timers :
    ∃ t u, exec (.ldDtVx 1#4) (start.setReg 1#4 7#8) = .next t ∧ t.dt ≠ (start.setReg 1#4 7#8).dt ∧
      exec (.ldStVx 1#4) (start.setReg 1#4 7#8) = .next u ∧ u.st ≠ (start.setReg 1#4 7#8).st := ⟨_, _, rfl, by decide, rfl, by decide⟩

theorem witness_ControlStateChangesOnlyByItsInstructions_wait_and_memory :
    ∃ t u, exec (.ldVxK 1#4) start = .next t ∧ t.wait ≠ start.wait ∧
      exec (.ldB 1#4) ((start.setReg 1#4 7#8).setIndex 0x300#16) = .next u ∧ u.mem ≠ start.mem := ⟨_, _, rfl, by decide, rfl, by decide⟩

theorem witness_ScreenChangesOnlyByClsAndDrw_drw :
    ∃ t, step (fetching 0xD015) = .next t ∧ t.fb ≠ (fetching 0xD015).fb := ⟨_, rfl, by decide⟩

theorem witness_ScreenChangesOnlyByClsAndDrw_cls :
    ∃ t, step ((litAt 3 5).withFetchWord 16 0x00E0) = .next t ∧ t.fb ≠ (litAt 3 5).fb := ⟨_, rfl, by decide⟩

theorem witness_PcMovesOnlyAsTheInstructionSays_skip :
    ∃ t, start.Running ∧ exec (.seImm 1#4 0#8) start = .next t ∧ t.Running ∧ t.pc = start.pc + 4#16 := ⟨_, by decide, rfl, by decide, by decide⟩

theorem witness_PcMovesOnlyAsTheInstructionSays_wraps :
    ∃ t, (start.setPc 0xFFFE#16).Running ∧ exec .cls (start.setPc 0xFFFE#16) = .next t ∧ t.Running ∧ t.pc = 0x0000#16 := ⟨_, by decide, rfl, by decide, by decide⟩

theorem witness_PcMovesOnlyAsTheInstructionSays_fault :
    ∃ t, start.Running ∧ exec .ret start = .next t ∧ t.Terminal := ⟨_, by decide, rfl, by decide⟩

theorem witness_Advances_boundary :
    (start.setPc 0xFFFD#16).pc.toNat < 0xFFFE ∧ (start.setPc 0xFFFB#16).pc.toNat < 0xFFFC := by decide

theorem witness_ScreenChangesOnlyByClsAndDrw_other_framebuffer :
    ∃ t u, exec (.drw 0#4 1#4 1#4) start = .next t ∧ exec (.drw 0#4 1#4 1#4) { start with fb := (litAt 0 0).fb } = .next u ∧
      t.reg vf ≠ u.reg vf := ⟨_, _, rfl, rfl, by decide⟩

theorem witness_EveryRunningStateHasANextFrame :
    State.reset.Running := by decide

/-! ### The frame -/

theorem witness_StepRunsTheDecodedInstruction :
    ∃ u, (fetching 0x6A2F).Running ∧ (fetching 0x6A2F).frameInput.poll = .keys 0#16 ∧ (fetching 0x6A2F).wait = .idle ∧
      (fetching 0x6A2F).fetchAdmitted (fetching 0x6A2F).pc.toNat = true ∧ (fetching 0x6A2F).pc.toNat + 1 ≤ 0xFFF ∧
      decodeBytes (fetching 0x6A2F).config.sysPolicy
        [(fetching 0x6A2F).readByte (fetching 0x6A2F).pc.toNat, (fetching 0x6A2F).readByte ((fetching 0x6A2F).pc.toNat + 1)] =
        (.instr (.ldImm 0xA#4 0x2F#8), []) ∧
      exec (.ldImm 0xA#4 0x2F#8) ((fetching 0x6A2F).clearOutputs.setKeys 0#16) = .next u := ⟨_, by decide, by decide, by decide, by decide, by decide, by decide, rfl⟩

theorem witness_StopEndsTheRunAndDoesNothingElse :
    (polled .stop 0#4 start).Running ∧ (polled .stop 0#4 start).frameInput.poll = .stop := by decide

theorem witness_OnlyTerminalStatesTakeNoStep_each :
    (start.setStatus .stopped).status = .stopped ∧
      (start.setStatus (.faulted (.decodeError 0#16))).status = .faulted (.decodeError 0#16) ∧ ¬start.Terminal := by decide

/-- A two-byte image at 0x200, about to fetch at the address. -/
def imageWindow (a : Word) : State := (fetching 0x6001).setPc a

theorem witness_FetchOutsideTheWindowFaults_below :
    (imageWindow 0x1FF#16).Running ∧ (imageWindow 0x1FF#16).frameInput.poll = .keys 0#16 ∧
      (imageWindow 0x1FF#16).wait = .idle ∧ (imageWindow 0x1FF#16).config.fetchWindow = .image ∧
      (imageWindow 0x1FF#16).pc.toNat < 0x200 := by decide

theorem witness_FetchOutsideTheWindowFaults_above :
    (imageWindow 0x201#16).Running ∧ (imageWindow 0x201#16).frameInput.poll = .keys 0#16 ∧
      (imageWindow 0x201#16).wait = .idle ∧ (imageWindow 0x201#16).config.fetchWindow = .image ∧
      0x200 + (imageWindow 0x201#16).imageLen < (imageWindow 0x201#16).pc.toNat + 2 := by decide

/-- `start` under FETCH_WINDOW = memory, about to fetch at the address. -/
def memoryWindow (a : Word) : State := { start with config := { defaultConfig with fetchWindow := .memory } }.setPc a

theorem witness_FetchOutsideTheWindowFaults_memory :
    (memoryWindow 0xFFF#16).Running ∧ (memoryWindow 0xFFF#16).frameInput.poll = .keys 0#16 ∧
      (memoryWindow 0xFFF#16).wait = .idle ∧ (memoryWindow 0xFFF#16).config.fetchWindow = .memory ∧
      0xFFF < (memoryWindow 0xFFF#16).pc.toNat + 1 := by decide

theorem witness_IllegalWordsRaiseDecodeError :
    (fetching 0x8128).Running ∧ (fetching 0x8128).frameInput.poll = .keys 0#16 ∧ (fetching 0x8128).wait = .idle ∧
      (fetching 0x8128).fetchAdmitted (fetching 0x8128).pc.toNat = true ∧ (fetching 0x8128).pc.toNat + 1 ≤ 0xFFF ∧
      (0x8128#16).toNat = ((fetching 0x8128).readByte (fetching 0x8128).pc.toNat).toNat * 256 +
        ((fetching 0x8128).readByte ((fetching 0x8128).pc.toNat + 1)).toNat ∧
      decodeWord (fetching 0x8128).config.sysPolicy 0x8128#16 = .decodeError 0x8128#16 := by decide

theorem witness_IllegalWordsRaiseDecodeError_at_the_top :
    (memoryWindow 0xFFE#16).fetchAdmitted (memoryWindow 0xFFE#16).pc.toNat = true ∧ (memoryWindow 0xFFE#16).pc.toNat + 1 ≤ 0xFFF ∧
      decodeWord (memoryWindow 0xFFE#16).config.sysPolicy 0x0000#16 = .decodeError 0x0000#16 := by decide

theorem witness_FaultedFramesCommitNothing :
    ∃ t, step (fetching 0x00EE) = .next t ∧ t.status = .faulted (.stackUnderflow 0x200#16) := ⟨_, rfl, by decide⟩

/-- `start` waiting on V2 for the captured keys, with the given keys polled. -/
def waiting (captured now : KeyMap) (choice : Nibble) : State := (polled (.keys now) choice start).setWait (.waiting 2#4 captured)

theorem witness_AWaitFrameUpdatesTheWait_held :
    (waiting 0x8001#16 0x8003#16 0#4).Running ∧ (waiting 0x8001#16 0x8003#16 0#4).frameInput.poll = .keys 0x8003#16 ∧
      (waiting 0x8001#16 0x8003#16 0#4).wait = .waiting 2#4 0x8001#16 ∧
      ∀ j, j < 16 → ¬((0x8001#16).getLsbD j = true ∧ (0x8003#16).getLsbD j = false) := by decide

theorem witness_AWaitFrameUpdatesTheWait_released :
    (waiting 0x8001#16 0x0001#16 0#4).Running ∧ (waiting 0x8001#16 0x0001#16 0#4).frameInput.poll = .keys 0x0001#16 ∧
      (waiting 0x8001#16 0x0001#16 0#4).wait = .waiting 2#4 0x8001#16 ∧
      ∃ j, j < 16 ∧ (0x8001#16).getLsbD j = true ∧ (0x0001#16).getLsbD j = false := ⟨by decide, by decide, by decide, 15, by decide⟩

theorem witness_EveryReleasedKeyCanBeChosen :
    (waiting 0x0208#16 0#16 9#4).Running ∧ (waiting 0x0208#16 0#16 9#4).frameInput.poll = .keys 0#16 ∧
      (waiting 0x0208#16 0#16 9#4).wait = .waiting 2#4 0x0208#16 ∧ (0x0208#16).getLsbD (9#4).toNat = true ∧
      (0#16).getLsbD (9#4).toNat = false ∧ (waiting 0x0208#16 0#16 9#4).frameInput.kchoice = 9#4 := by decide

/-- The states of a run from s, in which a state that takes no step stays. -/
def frames (s : State) : Nat → State
  | 0 => s
  | n + 1 => (answer (step (frames s n))).getD (frames s n)

/-- Two frames of a wait, key 3 held throughout and key 9 pressed in the second. -/
def heldStart : State :=
  { waiting 0x0008#16 0#16 0#4 with
    inputs := [{ poll := .keys 0x0008#16, rnd := 0#8, kchoice := 0#4 }, { poll := .keys 0x0208#16, rnd := 0#8, kchoice := 0#4 }] }

/-- The keys polled in those frames. -/
def heldKeys (j : Nat) : KeyMap := if j = 0 then 0x0008#16 else 0x0208#16

theorem witness_HeldKeysNeverEndAWait :
    RunOf (frames heldStart) 2 ∧ (frames heldStart 0).wait = .waiting 2#4 0x0008#16 ∧
      (∀ j, j < 2 → (frames heldStart j).frameInput.poll = .keys (heldKeys j)) ∧
      (0 < 2 → 0x0008#16 &&& ~~~(heldKeys 0) = 0#16) ∧
      (∀ j, j + 1 < 2 → heldKeys j &&& ~~~(heldKeys (j + 1)) = 0#16) := by
  refine ⟨fun j hj => ?_, rfl, fun j hj => ?_, fun _ => by decide, fun j hj => ?_⟩
  · interval_cases j <;> rfl
  · interval_cases j <;> rfl
  · obtain rfl : j = 0 := by omega
    decide

theorem witness_RenderFollowsDirty_dirty :
    ∃ u, (fetching 0x00E0).Running ∧ (fetching 0x00E0).frameInput.poll = .keys 0#16 ∧
      phaseTwo (fetching 0x00E0).frameInput.kchoice ((fetching 0x00E0).clearOutputs.setKeys 0#16) = .next u ∧ u.Running ∧ u.dirty = true := ⟨_, by decide, by decide, rfl, by decide, by decide⟩

theorem witness_RenderFollowsDirty_clean :
    ∃ u, (fetching 0x6001).Running ∧ (fetching 0x6001).frameInput.poll = .keys 0#16 ∧
      phaseTwo (fetching 0x6001).frameInput.kchoice ((fetching 0x6001).clearOutputs.setKeys 0#16) = .next u ∧ u.Running ∧ u.dirty = false := ⟨_, by decide, by decide, rfl, by decide, by decide⟩

theorem witness_ExactlyClsAndDrwFramesRender_render :
    ∃ t, (fetching 0xD010).ScreenOk ∧ step (fetching 0xD010) = .next t ∧ t.Running ∧ t.renderOut ≠ none := ⟨_, by decide, rfl, by decide, by decide⟩

theorem witness_ExactlyClsAndDrwFramesRender_none :
    ∃ t, (fetching 0x6001).ScreenOk ∧ step (fetching 0x6001) = .next t ∧ t.Running ∧ t.renderOut = none := ⟨_, by decide, rfl, by decide, by decide⟩

theorem witness_EveryCompletedFrameTicksOnce :
    ∃ u, ((fetching 0x6001).setDt 0x01#8).Running ∧ ((fetching 0x6001).setDt 0x01#8).frameInput.poll = .keys 0#16 ∧
      phaseTwo ((fetching 0x6001).setDt 0x01#8).frameInput.kchoice (((fetching 0x6001).setDt 0x01#8).clearOutputs.setKeys 0#16) = .next u ∧ u.Running ∧ u.dt.toNat = 1 ∧ u.st.toNat = 0 := ⟨_, by decide, by decide, rfl, by decide, by decide⟩

theorem witness_EveryCompletedFrameTicksOnce_waiting :
    ∃ u, (waiting 0#16 0#16 0#4).Running ∧ (waiting 0#16 0#16 0#4).frameInput.poll = .keys 0#16 ∧
      phaseTwo 0#4 ((waiting 0#16 0#16 0#4).clearOutputs.setKeys 0#16) = .next u ∧ u.Running := ⟨_, by decide, by decide, rfl, by decide⟩

theorem witness_AudioFollowsTheSoundTimer_one :
    ∃ u, ((fetching 0x6001).setSt 0x01#8).Running ∧ ((fetching 0x6001).setSt 0x01#8).frameInput.poll = .keys 0#16 ∧
      phaseTwo ((fetching 0x6001).setSt 0x01#8).frameInput.kchoice (((fetching 0x6001).setSt 0x01#8).clearOutputs.setKeys 0#16) = .next u ∧ u.Running ∧ u.st.toNat = 1 := ⟨_, by decide, by decide, rfl, by decide, by decide⟩

theorem witness_AudioFollowsTheSoundTimer_two :
    ∃ u, ((fetching 0x6001).setSt 0x02#8).Running ∧ ((fetching 0x6001).setSt 0x02#8).frameInput.poll = .keys 0#16 ∧
      phaseTwo ((fetching 0x6001).setSt 0x02#8).frameInput.kchoice (((fetching 0x6001).setSt 0x02#8).clearOutputs.setKeys 0#16) = .next u ∧ u.Running ∧ 1 < u.st.toNat := ⟨_, by decide, by decide, rfl, by decide, by decide⟩

theorem witness_AudioFollowsTheSoundTimer_zero :
    ∃ u, (fetching 0x6001).Running ∧ (fetching 0x6001).frameInput.poll = .keys 0#16 ∧
      phaseTwo (fetching 0x6001).frameInput.kchoice ((fetching 0x6001).clearOutputs.setKeys 0#16) = .next u ∧ u.Running ∧ u.st.toNat = 0 := ⟨_, by decide, by decide, rfl, by decide, by decide⟩

theorem witness_TheDelayTimerCountsFrames :
    RunOf (frames ((fetching 0x1200).setDt 0x05#8)) 1 ∧ (∀ j, j ≤ 1 → (frames ((fetching 0x1200).setDt 0x05#8) j).Running) ∧
      (∀ j, j < 1 → ∀ x, (frames ((fetching 0x1200).setDt 0x05#8) j).wait = .idle →
        (frames ((fetching 0x1200).setDt 0x05#8) j).fetchDecode ≠ .instr (.ldDtVx x)) := by
  refine ⟨fun j hj => ?_, by decide, fun j hj => ?_⟩
  · obtain rfl : j = 0 := by omega
    rfl
  · obtain rfl : j = 0 := by omega
    decide

/-! ### Invariants, reset and load -/

theorem witness_EveryStepKeepsTheMemoryCanonical :
    ∃ t, (stored.withFetchWord 16 0xF033).MemoryOk ∧ step (stored.withFetchWord 16 0xF033) = .next t := ⟨_, by decide, rfl⟩

theorem witness_EveryStepKeepsTheStackBounded :
    ∃ t, (fetching 0x2204).StackOk ∧ step (fetching 0x2204) = .next t := ⟨_, fun n _ => Nat.zero_le n, rfl⟩

theorem witness_EveryStepKeepsTheStackBounded_full :
    (start.setStack (List.replicate 16 0x202#16)).StackOk := by
  intro n h
  obtain rfl : 16 = n := Option.some.inj h
  decide

theorem witness_EveryStepKeepsTheFrameInvariants :
    ∃ t, (fetching 0x00E0).ScreenOk ∧ step (fetching 0x00E0) = .next t := ⟨_, by decide, rfl⟩

theorem witness_ResetAndLoadMeetTheInvariants :
    ∃ s, State.load defaultConfig [0x60#8, 0x01#8] [] = some s := ⟨_, rfl⟩

theorem witness_ResetLeavesTheStatedValues_bytes :
    79 < 80 ∧ 80 ≤ 80 := by decide

theorem witness_LoadPlacesTheImageVerbatim_fits :
    (List.replicate 0xE00 0x12#8).length ≤ 0xE00 ∧ 0xDFF < (List.replicate 0xE00 0x12#8).length := by
  rw [List.length_replicate]
  omega

theorem witness_LoadPlacesTheImageVerbatim_too_long :
    (List.replicate 0xE01 0x12#8).length > 0xE00 := by
  rw [List.length_replicate]
  omega

end Sys2Proof.Tests
end

section
/-!
PROOFS. 20_memory.md: what MemRead and MemWrite access inside the memory, and that they answer nothing beyond it.
-/
namespace Sys2Proof.Machine

/-! ### What a run of written bytes holds and leaves unchanged -/

/-- The bytes written are read back in order. -/
theorem getElem?_eq_readByte_writeBytes (s : State) (a : Nat) (l : List Byte) {k : Nat} (hk : k < l.length) :
    l[k]? = some ((s.writeBytes a l).readByte (a + k)) := by
  have hin : a ≤ a + k ∧ a + k < a + l.length := by omega
  rw [readByte_writeBytes, if_pos hin, Nat.add_sub_cancel_left, List.getD_eq_getElem l _ hk, List.getElem?_eq_getElem hk]

theorem writeBytes_keepsBytesBut (s : State) (a : Nat) (l : List Byte) :
    KeepsBytesBut a l.length s (s.writeBytes a l) := fun a' hout => by
  rw [readByte_writeBytes, if_neg hout]

theorem writeBytes_keepsRegs (s : State) (a : Nat) (l : List Byte) : KeepsRegsBut [] s (s.writeBytes a l) :=
  fun r _ => State.writeBytes_reg s a l r

theorem writeBytes_keepsBut_memory (s : State) (a : Nat) (l : List Byte) :
    KeepsBut [.memory] s (s.writeBytes a l) := fun p hp => by
  cases p
  case memory => exact absurd (List.mem_singleton_self _) hp
  all_goals simp [Piece.Same]

/-! ### The accesses inside and beyond the memory -/

/-- The last byte of an access, addr + n - 1, is in 0x000..0xFFF, or there is none (R54): the same as ending by 0x1000. -/
theorem lastByte_le_iff (a n : Nat) : n = 0 ∨ a + n - 1 ≤ 0xFFF ↔ n = 0 ∨ a + n ≤ 0x1000 := by
  omega

theorem memRead_inside (s : State) {a n : Nat} (h : n = 0 ∨ a + n - 1 ≤ 0xFFF) :
    s.memRead a n = some ((List.range n).map fun k => s.readByte (a + k)) := by
  rw [memRead_eq, if_pos ((lastByte_le_iff a n).mp h)]

theorem memRead_beyond (s : State) {a n : Nat} (h : n > 0 ∧ a + n - 1 > 0xFFF) : s.memRead a n = none := by
  rw [memRead_eq, if_neg (by omega)]

theorem memWrite_inside (s : State) {a : Nat} {l : List Byte} (h : l.length = 0 ∨ a + l.length - 1 ≤ 0xFFF) :
    s.memWrite a l = some (s.writeBytes a l) := by
  rw [memWrite_eq, if_pos ((lastByte_le_iff a l.length).mp h)]

theorem memWrite_beyond (s : State) {a : Nat} {l : List Byte} (h : l.length > 0 ∧ a + l.length - 1 > 0xFFF) :
    s.memWrite a l = none := by
  rw [memWrite_eq, if_neg (by omega)]

/-- Settles O27: each access is decided by its range alone, and what an admitted write leaves is read off byte by byte. -/
theorem memoryPrimitivesAccessTheirRange : Obligations.MemoryPrimitivesAccessTheirRange := by
  intro s a n l
  refine ⟨fun hin => ⟨_, memRead_inside s hin, ?length, ?bytes⟩, memRead_beyond s,
    fun hin => ⟨_, memWrite_inside s hin, fun k => getElem?_eq_readByte_writeBytes s a l,
      writeBytes_keepsBytesBut s a l, writeBytes_keepsRegs s a l, writeBytes_keepsBut_memory s a l⟩,
    memWrite_beyond s⟩
  case length => rw [List.length_map, List.length_range]
  case bytes =>
    intro k hk
    rw [List.getElem?_map, List.getElem?_range hk, Option.map_some]

end Sys2Proof.Machine
end

section
/-!
PROOFS. 41_control_flow.md: what JP, RET and the immediate skips do to PC and the stack, and that nothing else changes.
-/
namespace Sys2Proof.Machine

/-! ### Frames of the updates, and of one update after another -/

theorem Piece.Same.trans {s t u : State} {p : Piece} (hst : p.Same s t) (htu : p.Same t u) : p.Same s u := by
  cases p
  case memory => exact fun a => (htu a).trans (hst a)
  case inputs => exact ⟨htu.1.trans hst.1, htu.2.trans hst.2⟩
  case outputs => exact ⟨htu.1.trans hst.1, htu.2.trans hst.2⟩
  all_goals exact Eq.trans htu hst

theorem KeepsBut.mono {l l' : List Piece} {s t : State} (h : KeepsBut l s t) (hsub : l ⊆ l') : KeepsBut l' s t :=
  fun p hp => h p fun hl => hp (hsub hl)

theorem KeepsBut.trans {l l' : List Piece} {s t u : State} (hst : KeepsBut l s t) (htu : KeepsBut l' t u) :
    KeepsBut (l ++ l') s u := fun p hp =>
  (hst p fun hl => hp (List.mem_append_left l' hl)).trans (htu p fun hl => hp (List.mem_append_right l hl))

theorem setPc_keepsBut_pc (s : State) (a : Word) : KeepsBut [.pc] s (s.setPc a) := fun p hp => by
  cases p
  case pc => exact absurd (List.mem_singleton_self _) hp
  all_goals simp [Piece.Same]

theorem setPc_keepsRegs (s : State) (a : Word) : KeepsRegsBut [] s (s.setPc a) := fun r _ => State.setPc_reg s a r

theorem setStack_keepsBut_stack (s : State) (l : List Word) : KeepsBut [.stack] s (s.setStack l) := fun p hp => by
  cases p
  case stack => exact absurd (List.mem_singleton_self _) hp
  all_goals simp [Piece.Same]

theorem setStatus_keepsBut_status (s : State) (q : RunStatus) : KeepsBut [.status] s (s.setStatus q) := fun p hp => by
  cases p
  case status => exact absurd (List.mem_singleton_self _) hp
  all_goals simp [Piece.Same]

theorem setStatus_keepsRegs (s : State) (q : RunStatus) : KeepsRegsBut [] s (s.setStatus q) :=
  fun r _ => State.setStatus_reg s q r

/-! ### RET -/

theorem decodeWord_ret (p : SysPolicy) : decodeWord p 0x00EE#16 = .instr .ret := by
  cases p <;> decide

theorem exec_ret_of_stack_cons {s : State} {a : Word} {rest : List Word} (h : s.stack = a :: rest) :
    exec .ret s = .next ((s.setStack rest).setPc a) := by
  simp only [exec, execRet, h]

theorem exec_ret_of_stack_nil {s : State} (h : s.stack = []) :
    exec .ret s = .next (s.setStatus (.faulted (.stackUnderflow s.pc))) := by
  simp only [exec, execRet, h, raise]

/-- RET drops the top of the stack and writes PC, two updates with a frame each. -/
theorem pop_keepsBut_pc_stack (s : State) (a : Word) (rest : List Word) :
    KeepsBut [.pc, .stack] s ((s.setStack rest).setPc a) :=
  ((setStack_keepsBut_stack s rest).trans (setPc_keepsBut_pc _ a)).mono (by simp)

/-- Settles O7: a non-empty stack is its top and the rest, and a stack of depth 0 is the empty one. -/
theorem retPopsTheReturnAddress : Obligations.RetPopsTheReturnAddress := by
  intro s
  refine ⟨decodeWord_ret, fun a rest hcons => ?pops, fun hsp => ?faults⟩
  case pops =>
    have hdepth : rest.length + 1 = s.sp := (congrArg List.length hcons).symm
    exact ⟨_, exec_ret_of_stack_cons hcons, rfl, rfl, hdepth, setPc_keepsRegs _ a, pop_keepsBut_pc_stack s a rest⟩
  case faults =>
    have hnil : s.stack = [] := List.eq_nil_of_length_eq_zero hsp
    exact ⟨_, exec_ret_of_stack_nil hnil, rfl, setStatus_keepsRegs s _, setStatus_keepsBut_status s _⟩

/-! ### Skips (R120) -/

theorem decodeWord_seImm (p : SysPolicy) (x : RegIx) (nn : Byte) :
    decodeWord p (byteWord 0x3#4 x nn) = .instr (.seImm x nn) := by
  simp [decodeWord]

theorem decodeWord_sneImm (p : SysPolicy) (x : RegIx) (nn : Byte) :
    decodeWord p (byteWord 0x4#4 x nn) = .instr (.sneImm x nn) := by
  simp [decodeWord]

/-- A skip is one write of PC, 4 on when it is taken and 2 on when it is not. -/
theorem advance_skipIf_eq (s : State) (c : Bool) : s.advance.skipIf c = s.setPc (s.pc + if c then 4#16 else 2#16) := by
  cases c
  · rfl
  · rw [State.skipIf_eq, if_pos rfl, if_pos rfl, State.advance, State.setPc_pc, BitVec.add_assoc]
    rfl

theorem skip_keepsBut_pc (s : State) (c : Bool) : KeepsBut [.pc] s (s.advance.skipIf c) :=
  advance_skipIf_eq s c ▸ setPc_keepsBut_pc s _

theorem skip_keepsRegs (s : State) (c : Bool) : KeepsRegsBut [] s (s.advance.skipIf c) :=
  advance_skipIf_eq s c ▸ setPc_keepsRegs s _

theorem skip_pc_toNat (s : State) (c : Bool) :
    (s.advance.skipIf c).pc.toNat = (s.pc.toNat + if c then 4 else 2) % 65536 := by
  rw [advance_skipIf_eq, State.setPc_pc, BitVec.toNat_add]
  cases c <;> rfl

/-- Below 0xFFFC neither the advance nor a taken skip wraps (D4). -/
theorem skip_pc_toNat_of_lt (s : State) (c : Bool) (h : s.pc.toNat < 0xFFFC) :
    (s.advance.skipIf c).pc.toNat = s.pc.toNat + if c then 4 else 2 := by
  rw [skip_pc_toNat, Nat.mod_eq_of_lt]
  split <;> omega

/-- Settles O11: both are the advance and a skip on the comparison, which SNE negates. -/
theorem immediateSkipsSkipOneWord : Obligations.ImmediateSkipsSkipOneWord := by
  intro x nn s
  refine ⟨fun p => decodeWord_seImm p x nn, fun p => decodeWord_sneImm p x nn,
    ⟨s.advance.skipIf (s.reg x == nn), rfl, fun hpc => ?equal, skip_keepsRegs s _, skip_keepsBut_pc s _⟩,
    ⟨s.advance.skipIf (s.reg x != nn), rfl, fun hpc => ?unequal, skip_keepsRegs s _, skip_keepsBut_pc s _⟩⟩
  case equal =>
    rw [skip_pc_toNat_of_lt s _ hpc]
    simp only [beq_iff_eq]
  case unequal =>
    rw [skip_pc_toNat_of_lt s _ hpc]
    simp only [bne_iff_ne, ite_not]

/-! ### JP -/

theorem decodeWord_jp (p : SysPolicy) (nnn : Addr) : decodeWord p (addressWord 0x1#4 nnn) = .instr (.jp nnn) := by
  simp [decodeWord]

/-- A 12-bit address keeps its value in the 16 bits of PC. -/
theorem toNat_addrOperand (nnn : Addr) : (addrOperand nnn).toNat = nnn.toNat :=
  BitVec.toNat_setWidth_of_le (by decide)

/-- Settles O5: the jump is one write of PC. -/
theorem jpSetsPcToTheAddress : Obligations.JpSetsPcToTheAddress := fun nnn s =>
  ⟨fun p => decodeWord_jp p nnn, s.setPc (addrOperand nnn), rfl, toNat_addrOperand nnn, setPc_keepsRegs s _,
    setPc_keepsBut_pc s _⟩

end Sys2Proof.Machine
end

section
/-!
PROOFS. 42_register_ops.md: the operations that assign one register and set no flag, LD VX, byte, LD VX, VY and ADD VX, byte.
-/
namespace Sys2Proof.Machine

/-! ### Assigning one register after the advance -/

theorem setReg_keepsBut_nothing (s : State) (x : RegIx) (b : Byte) : KeepsBut [] s (s.setReg x b) := fun p _ => by
  cases p <;> simp [Piece.Same]

theorem setReg_keepsRegsBut (s : State) (x : RegIx) (b : Byte) : KeepsRegsBut [x] s (s.setReg x b) := fun _ hr =>
  reg_setReg_of_ne s b (List.ne_of_not_mem_cons hr)

theorem advance_keepsBut_pc (s : State) : KeepsBut [.pc] s s.advance := setPc_keepsBut_pc s _

theorem assign_keepsBut_pc (s : State) (x : RegIx) (b : Byte) : KeepsBut [.pc] s (s.advance.setReg x b) :=
  (advance_keepsBut_pc s).trans (setReg_keepsBut_nothing s.advance x b)

theorem assign_keepsRegsBut (s : State) (x : RegIx) (b : Byte) : KeepsRegsBut [x] s (s.advance.setReg x b) := fun r hr =>
  (setReg_keepsRegsBut s.advance x b r hr).trans (State.advance_reg s r)

/-- Below 0xFFFE the 16-bit sum does not wrap (D4). -/
theorem advances_of_pc_eq {s t : State} (h : t.pc = s.pc + 2#16) : Advances s t := fun hpc => by
  rw [h, BitVec.toNat_add_of_lt (Nat.add_lt_add_right hpc 2)]
  rfl

theorem assign_advances (s : State) (x : RegIx) (b : Byte) : Advances s (s.advance.setReg x b) := advances_of_pc_eq rfl

/-! ### ADD VX, byte (R143) -/

theorem decodeWord_addImm (p : SysPolicy) (x : RegIx) (nn : Byte) :
    decodeWord p (byteWord 0x7#4 x nn) = .instr (.addImm x nn) := by
  simp [decodeWord]

/-- The register holds the sum modulo 256. -/
theorem toNat_reg_assign_add (s : State) (x : RegIx) (nn : Byte) :
    ((s.advance.setReg x (s.reg x + nn)).reg x).toNat = ((s.reg x).toNat + nn.toNat) % 256 := by
  rw [reg_setReg_same, BitVec.toNat_add]

/-- Settles O14: the wrapped sum is assigned as any byte is, and an assignment keeps every register but its destination. -/
theorem addImmediateWrapsWithoutAFlag : Obligations.AddImmediateWrapsWithoutAFlag := fun x nn s =>
  ⟨fun p => decodeWord_addImm p x nn, s.advance.setReg x (s.reg x + nn), rfl, toNat_reg_assign_add s x nn,
    assign_advances s x _, assign_keepsRegsBut s x _, assign_keepsBut_pc s x _⟩

/-! ### LD VX, byte and LD VX, VY (R142, R144) -/

theorem decodeWord_ldImm (p : SysPolicy) (x : RegIx) (nn : Byte) :
    decodeWord p (byteWord 0x6#4 x nn) = .instr (.ldImm x nn) := by
  simp [decodeWord]

theorem decodeWord_ldReg (p : SysPolicy) (x y : RegIx) :
    decodeWord p (nibbleWord 0x8#4 x y 0x0#4) = .instr (.ldReg x y) := by
  simp [decodeWord, decode8]

/-- Settles O13: both are one assignment after the advance, of the byte and of VY as it was. -/
theorem loadsAssignTheirSource : Obligations.LoadsAssignTheirSource := fun x y nn s =>
  ⟨fun p => decodeWord_ldImm p x nn, fun p => decodeWord_ldReg p x y,
    ⟨s.advance.setReg x nn, rfl, reg_setReg_same _ x nn, assign_advances s x nn, assign_keepsRegsBut s x nn,
      assign_keepsBut_pc s x nn⟩,
    ⟨s.advance.setReg x (s.reg y), rfl, reg_setReg_same _ x (s.reg y), assign_advances s x _, assign_keepsRegsBut s x _,
      assign_keepsBut_pc s x _⟩⟩

end Sys2Proof.Machine
end

section
/-!
PROOFS. 43_memory_ops.md: LD B, VX and LD VX, [I], each an access of the whole range at I or a fault that commits nothing.
-/
namespace Sys2Proof.Machine

/-! ### LD B, VX (R175) -/

theorem decodeWord_ldB (p : SysPolicy) (x : RegIx) : decodeWord p (byteWord 0xF#4 x 0x33#8) = .instr (.ldB x) := by
  simp [decodeWord, decodeF]

theorem exec_ldB_inside (x : RegIx) {s : State} (h : s.index.toNat + 2 ≤ 0xFFF) :
    exec (.ldB x) s = .next (s.writeBytes s.index.toNat (bcdDigits (s.reg x))).advance :=
  (execLdB_eq x s).trans (if_pos (Nat.succ_le_succ h))

theorem exec_ldB_beyond (x : RegIx) {s : State} (h : 0xFFF < s.index.toNat + 2) :
    exec (.ldB x) s = .next (s.setStatus (.faulted (.memoryFault s.index.toNat 3))) :=
  (execLdB_eq x s).trans (if_neg (Nat.not_le_of_lt (Nat.succ_lt_succ h)))

/-- Each digit is below 256, so its byte holds it. -/
theorem toNat_bcdDigits (b : Byte) :
    (bcdDigits b).map BitVec.toNat = [b.toNat / 100, b.toNat / 10 % 10, b.toNat % 10] := by
  have hb : b.toNat < 256 := b.isLt
  have hundreds : b.toNat / 100 < 2 ^ 8 := by omega
  have tens : b.toNat / 10 % 10 < 2 ^ 8 := by omega
  have units : b.toNat % 10 < 2 ^ 8 := by omega
  simp only [bcdDigits, List.map_cons, List.map_nil, BitVec.toNat_ofNat, Nat.mod_eq_of_lt hundreds, Nat.mod_eq_of_lt tens,
    Nat.mod_eq_of_lt units]

/-- A byte of the run written holds the number that stands at its place in the run. -/
theorem toNat_readByte_writeBytes (s : State) (a : Nat) (l : List Byte) {k n : Nat} (h : (l.map BitVec.toNat)[k]? = some n) :
    ((s.writeBytes a l).readByte (a + k)).toNat = n := by
  obtain ⟨hk, -⟩ := List.getElem?_eq_some_iff.mp h
  rw [List.length_map] at hk
  rw [List.getElem?_map, getElem?_eq_readByte_writeBytes s a l hk] at h
  exact Option.some.inj h

theorem toNat_readByte_writeBytes_bcdDigits (s : State) (a : Nat) (b : Byte) {k n : Nat}
    (h : [b.toNat / 100, b.toNat / 10 % 10, b.toNat % 10][k]? = some n) :
    ((s.writeBytes a (bcdDigits b)).readByte (a + k)).toNat = n :=
  toNat_readByte_writeBytes s a (bcdDigits b) (toNat_bcdDigits b ▸ h)

/-! A store writes its bytes, then advances PC. -/

theorem store_advances (s : State) (a : Nat) (l : List Byte) : Advances s (s.writeBytes a l).advance :=
  advances_of_pc_eq (by rw [State.advance_pc, State.writeBytes_pc])

theorem store_keepsBytesBut (s : State) (a : Nat) (l : List Byte) :
    KeepsBytesBut a l.length s (s.writeBytes a l).advance := writeBytes_keepsBytesBut s a l

theorem store_keepsBut_pc_memory (s : State) (a : Nat) (l : List Byte) :
    KeepsBut [.pc, .memory] s (s.writeBytes a l).advance :=
  ((writeBytes_keepsBut_memory s a l).trans (advance_keepsBut_pc _)).mono (by simp)

/-- Settles O23: the three digits are one run of bytes, each of which is read back where it was written. -/
theorem ldBStoresTheDecimalDigits : Obligations.LdBStoresTheDecimalDigits := by
  rintro x s _ rfl
  refine ⟨fun p => decodeWord_ldB p x, fun hin => ?stores, fun hout => ?faults⟩
  case stores =>
    have hdigit (k : Nat) {n : Nat} :=
      toNat_readByte_writeBytes_bcdDigits s s.index.toNat (s.reg x) (k := k) (n := n)
    exact ⟨_, exec_ldB_inside x hin, hdigit 0 rfl, hdigit 1 rfl, hdigit 2 rfl, store_advances s _ _,
      writeBytes_keepsRegs s _ _, store_keepsBytesBut s _ (bcdDigits (s.reg x)), store_keepsBut_pc_memory s _ _⟩
  case faults =>
    exact ⟨_, exec_ldB_beyond x hout, rfl, setStatus_keepsRegs s _, setStatus_keepsBut_status s _⟩

/-! ### LD VX, [I] (R177) -/

theorem decodeWord_ldVxMem (p : SysPolicy) (x : RegIx) :
    decodeWord p (byteWord 0xF#4 x 0x65#8) = .instr (.ldVxMem x) := by
  simp [decodeWord, decodeF]

/-- The bytes at I, I+1, ..., I+x, as they stand in memory. -/
def bytesAtIndex (x : RegIx) (s : State) : List Byte :=
  (List.range (transferCount x)).map fun k => s.readByte (s.index.toNat + k)

/-- What an admitted LD VX, [I] leaves. -/
def registersLoaded (x : RegIx) (s : State) : State :=
  (s.advance.setRegsFrom 0 (bytesAtIndex x s)).setIndex (s.index + BitVec.ofNat 16 (transferCount x))

theorem exec_ldVxMem_inside {x : RegIx} {s : State} (h : s.index.toNat + x.toNat ≤ 0xFFF) :
    exec (.ldVxMem x) s = .next (registersLoaded x s) :=
  (execLdVxMem_eq x s).trans (if_pos (Nat.succ_le_succ h))

theorem exec_ldVxMem_beyond {x : RegIx} {s : State} (h : 0xFFF < s.index.toNat + x.toNat) :
    exec (.ldVxMem x) s = .next (s.setStatus (.faulted (.memoryFault s.index.toNat (x.toNat + 1)))) :=
  (execLdVxMem_eq x s).trans (if_neg (Nat.not_le_of_lt (Nat.succ_lt_succ h)))

theorem length_bytesAtIndex (x : RegIx) (s : State) : (bytesAtIndex x s).length = x.toNat + 1 := by
  rw [bytesAtIndex, List.length_map, List.length_range, transferCount]

theorem getD_bytesAtIndex {x : RegIx} (s : State) {k : Nat} (h : k ≤ x.toNat) :
    (bytesAtIndex x s).getD k 0#8 = s.readByte (s.index.toNat + k) := by
  have hk : k < (bytesAtIndex x s).length := length_bytesAtIndex x s ▸ Nat.lt_succ_of_le h
  rw [List.getD_eq_getElem _ _ hk]
  simp only [bytesAtIndex, List.getElem_map, List.getElem_range]

/-- The last register is V[x], so the run of registers does not go past VF. -/
theorem reg_registersLoaded (x r : RegIx) (s : State) :
    (registersLoaded x s).reg r = if r.toNat ≤ x.toNat then s.readByte (s.index.toNat + r.toNat) else s.reg r := by
  have hx : x.toNat < 16 := x.isLt
  have hlen : 0 + (bytesAtIndex x s).length ≤ 16 := by rw [length_bytesAtIndex]; omega
  rw [registersLoaded, State.setIndex_reg, reg_setRegsFrom _ 0 _ hlen, length_bytesAtIndex, State.advance_reg]
  by_cases hr : r.toNat ≤ x.toNat
  · rw [if_pos (by omega), if_pos hr, Nat.sub_zero, getD_bytesAtIndex s hr]
  · rw [if_neg (by omega), if_neg hr]

theorem toNat_index_registersLoaded (x : RegIx) (s : State) :
    (registersLoaded x s).index.toNat = (s.index.toNat + x.toNat + 1) % 65536 := by
  rw [registersLoaded, State.setIndex_index, BitVec.toNat_add, BitVec.toNat_ofNat, Nat.add_mod_mod, transferCount,
    Nat.add_assoc]

theorem registersLoaded_advances (x : RegIx) (s : State) : Advances s (registersLoaded x s) :=
  advances_of_pc_eq (by rw [registersLoaded, State.setIndex_pc, State.setRegsFrom_pc, State.advance_pc])

theorem registersLoaded_keepsBut_pc_index (x : RegIx) (s : State) : KeepsBut [.pc, .index] s (registersLoaded x s) :=
  fun p hp => by
    cases p
    case pc => exact absurd hp (by simp)
    case index => exact absurd hp (by simp)
    all_goals simp [Piece.Same, registersLoaded]

/-- Settles O25: the registers up to VX are the bytes read, the others and the memory are not written. -/
theorem ldVxMemLoadsTheRegisters : Obligations.LdVxMemLoadsTheRegisters := by
  intro x s
  refine ⟨fun p => decodeWord_ldVxMem p x, fun hin => ?loads, fun hout => ?faults⟩
  case loads =>
    exact ⟨registersLoaded x s, exec_ldVxMem_inside hin,
      fun r hr => (reg_registersLoaded x r s).trans (if_pos hr),
      fun r hr => (reg_registersLoaded x r s).trans (if_neg (Nat.not_le_of_lt hr)),
      toNat_index_registersLoaded x s, registersLoaded_advances x s, registersLoaded_keepsBut_pc_index x s⟩
  case faults =>
    exact ⟨_, exec_ldVxMem_beyond hout, rfl, setStatus_keepsRegs s _, setStatus_keepsBut_status s _⟩

end Sys2Proof.Machine
end

section
/-!
PROOFS. 44_display.md: CLS, and that the framebuffer is written by CLS and DRW alone and read back only through VF.
-/
namespace Sys2Proof.Machine

/-! ### CLS (R192) -/

theorem decodeWord_cls (p : SysPolicy) : decodeWord p 0x00E0#16 = .instr .cls := by
  cases p <;> decide

theorem setScreen_keepsBut_screen_dirty (s : State) (f : Framebuffer) : KeepsBut [.screen, .dirty] s (s.setScreen f) :=
  fun p hp => by
    cases p
    case screen => exact absurd hp (by simp)
    case dirty => exact absurd hp (by simp)
    all_goals simp [Piece.Same]

theorem setScreen_keepsRegs (s : State) (f : Framebuffer) : KeepsRegsBut [] s (s.setScreen f) := fun r _ =>
  State.setScreen_reg s f r

theorem exec_cls (s : State) : exec .cls s = .next (s.advance.setScreen clearScreen) := rfl

theorem cls_keepsBut_pc_screen_dirty (s : State) :
    KeepsBut [.pc, .screen, .dirty] s (s.advance.setScreen clearScreen) :=
  (advance_keepsBut_pc s).trans (setScreen_keepsBut_screen_dirty s.advance clearScreen)

/-- Settles O29: CLS is the advance and one write of the screen. -/
theorem clsClearsEveryPixel : Obligations.ClsClearsEveryPixel := fun s =>
  ⟨decodeWord_cls, _, exec_cls s, pixel_clearScreen, State.setScreen_dirty _ _, advances_of_pc_eq rfl,
    setScreen_keepsRegs s.advance clearScreen, cls_keepsBut_pc_screen_dirty s⟩

/-! ### The state over another framebuffer -/

/-- `s` over the framebuffer g, DIRTY as it was. -/
def State.withFb (s : State) (g : Framebuffer) : State := { s with fb := g }

@[simp] theorem State.withFb_fb (s : State) (g : Framebuffer) : (s.withFb g).fb = g := rfl
@[simp] theorem State.withFb_config (s : State) (g : Framebuffer) : (s.withFb g).config = s.config := rfl
@[simp] theorem State.withFb_reg (s : State) (g : Framebuffer) (r : RegIx) : (s.withFb g).reg r = s.reg r := rfl

/-- An answer whose next state stands over the framebuffer g. -/
def answerWithFb (g : Framebuffer) : Result → Result
  | .next t => .next (t.withFb g)
  | .fault f => .fault f
  | .refused r => .refused r

theorem skipIf_withFb (s : State) (g : Framebuffer) (c : Bool) : (s.withFb g).skipIf c = (s.skipIf c).withFb g := by
  cases c <;> rfl

theorem commit_withFb (s : State) (g : Framebuffer) (x : RegIx) (f : Flagged) :
    (s.withFb g).commit x f = (s.commit x f).withFb g := by
  by_cases hx : x ≠ vf
  · simp only [State.commit, if_pos hx]
    rfl
  · simp only [State.commit, if_neg hx, State.withFb_config]
    cases s.config.vfOrder <;> rfl

theorem setRegsFrom_withFb (s : State) (g : Framebuffer) (k : Nat) (l : List Byte) :
    (s.withFb g).setRegsFrom k l = (s.setRegsFrom k l).withFb g := by
  induction l generalizing s k with
  | nil => rfl
  | cons b rest ih => exact ih (s.setReg (BitVec.ofNat 4 k) b) (k + 1)

theorem writeBytes_withFb (s : State) (g : Framebuffer) (a : Nat) (l : List Byte) :
    (s.withFb g).writeBytes a l = (s.writeBytes a l).withFb g := by
  induction l generalizing s a with
  | nil => rfl
  | cons b rest ih => exact ih (s.writeByte a b) (a + 1)

/-- A choice that reads no pixel: each branch may be taken over the other framebuffer on its own. -/
theorem ite_eq_answerWithFb {c : Prop} [Decidable c] {g : Framebuffer} {a b a' b' : Result} (ha : a' = answerWithFb g a)
    (hb : b' = answerWithFb g b) : (if c then a' else b') = answerWithFb g (if c then a else b) := by
  rw [ha, hb, apply_ite (answerWithFb g)]

/-- The instructions that write the framebuffer. -/
abbrev writesScreen (i : Instr) : Prop := i = .cls ∨ ∃ x y n, i = .drw x y n

/-- Every instruction but CLS and DRW does over another framebuffer what it does over its own, and leaves it there (R193). -/
theorem exec_withFb {i : Instr} (hi : ¬writesScreen i) (s : State) (g : Framebuffer) :
    exec i (s.withFb g) = answerWithFb g (exec i s) := by
  cases i
  case cls => exact absurd (.inl rfl) hi
  case drw x y n => exact absurd (.inr ⟨x, y, n, rfl⟩) hi
  case ret =>
    cases hs : s.stack with
    | nil => rw [exec_ret_of_stack_nil hs, exec_ret_of_stack_nil (s := s.withFb g) hs]; rfl
    | cons a rest => rw [exec_ret_of_stack_cons hs, exec_ret_of_stack_cons (s := s.withFb g) hs]; rfl
  case call | ldF => exact ite_eq_answerWithFb rfl rfl
  case seImm | sneImm | seReg | sneReg => exact congrArg _ (skipIf_withFb s.advance g _)
  case skp | sknp => exact ite_eq_answerWithFb (congrArg _ (skipIf_withFb s.advance g _)) rfl
  case addReg | sub | shr | subn | shl => exact congrArg _ (commit_withFb s.advance g _ _)
  case ldB x =>
    simp only [exec, execLdB_eq]
    exact ite_eq_answerWithFb (congrArg (fun t : State => Host.Outcome.next t.advance) (writeBytes_withFb s g _ _)) rfl
  case ldMemVx x =>
    simp only [exec, execLdMemVx_eq]
    exact ite_eq_answerWithFb
      (congrArg (fun t : State => Host.Outcome.next (t.advance.setIndex _)) (writeBytes_withFb s g _ _)) rfl
  case ldVxMem x =>
    simp only [exec, execLdVxMem_eq]
    exact ite_eq_answerWithFb
      (congrArg (fun t : State => Host.Outcome.next (t.setIndex _)) (setRegsFrom_withFb s.advance g 0 _)) rfl
  -- The others are one update each, over operands that are no pixels.
  all_goals rfl

/-! ### The writers of the framebuffer -/

/-- Over its own framebuffer, an instruction that commutes with the choice of one leaves that one. -/
theorem writesScreen_of_fb_ne {i : Instr} {s t : State} (h : exec i s = .next t) (hfb : t.fb ≠ s.fb) : writesScreen i := by
  by_contra hi
  have hover : exec i s = answerWithFb s.fb (exec i s) := exec_withFb hi s s.fb
  rw [h] at hover
  injection hover with hstate
  refine hfb ?_
  rw [hstate, State.withFb_fb]

/-- A frame changes the framebuffer only in phase 2, by an instruction that writes it. -/
theorem step_fb_ne {s t : State} (h : step s = .next t) (hfb : t.fb ≠ s.fb) :
    s.wait = .idle ∧ (s.fetchDecode = .instr .cls ∨ ∃ x y n, s.fetchDecode = .instr (.drw x y n)) := by
  obtain ⟨-, ⟨-, rfl⟩ | ⟨k, u, -, hphase, rfl⟩⟩ := step_cases s h
  · exact absurd rfl hfb
  · rw [State.nextInputs_fb, State.finish_fb] at hfb
    obtain ⟨r, c, -, rfl⟩ | ⟨i, hwait, hfetch, hexec⟩ | ⟨k', -, -, rfl⟩ := phaseTwo_cases _ hphase
    · exact absurd (State.resolveWait_fb _ r c _) hfb
    · obtain rfl | ⟨x, y, n, rfl⟩ := writesScreen_of_fb_ne hexec hfb
      · exact ⟨hwait, .inl hfetch⟩
      · exact ⟨hwait, .inr ⟨x, y, n, hfetch⟩⟩
    · exact absurd rfl hfb

/-! ### The registers over another framebuffer -/

/-- DRW always answers, and writes no register but VF: the blit is drawn, or its fault commits nothing. -/
theorem exec_drw_keepsRegsBut (x y : RegIx) (n : Nibble) (s : State) :
    ∃ t, exec (.drw x y n) s = .next t ∧ KeepsRegsBut [vf] s t := by
  by_cases hin : n.toNat = 0 ∨ s.index.toNat + n.toNat ≤ 0x1000
  · exact ⟨_, (execDrw_eq x y n s).trans (if_pos hin), setReg_keepsRegsBut (s.advance.setScreen _) vf _⟩
  · exact ⟨_, (execDrw_eq x y n s).trans (if_neg hin), fun r _ => State.setStatus_reg s _ r⟩

/-- DRW writes VF alone, so its other registers are those before it, whatever the framebuffer. -/
theorem exec_drw_withFb_regs {x y : RegIx} {n : Nibble} {s t : State} (g : Framebuffer) (h : exec (.drw x y n) s = .next t) :
    ∃ u, exec (.drw x y n) (s.withFb g) = .next u ∧ ∀ r, r ≠ vf → u.reg r = t.reg r := by
  obtain ⟨t', ht', hkeeps⟩ := exec_drw_keepsRegsBut x y n s
  obtain ⟨u, hu, hkeepsOver⟩ := exec_drw_keepsRegsBut x y n (s.withFb g)
  obtain rfl : t' = t := by injection ht'.symm.trans h
  refine ⟨u, hu, fun r hr => ?_⟩
  have hmem : r ∉ [vf] := fun hin => hr (List.mem_singleton.mp hin)
  exact (hkeepsOver r hmem).trans (hkeeps r hmem).symm

/-- The registers an instruction leaves are those it leaves over its own framebuffer, VF after DRW apart. -/
theorem exec_withFb_regs {i : Instr} {s t : State} (g : Framebuffer) (h : exec i s = .next t) :
    ∃ u, exec i (s.withFb g) = .next u ∧ ∀ r, (r ≠ vf ∨ ∀ x y n, i ≠ .drw x y n) → u.reg r = t.reg r := by
  by_cases hi : writesScreen i
  · obtain rfl | ⟨x, y, n, rfl⟩ := hi
    · cases h
      exact ⟨_, exec_cls (s.withFb g), fun r _ => rfl⟩
    · obtain ⟨u, hu, hregs⟩ := exec_drw_withFb_regs g h
      exact ⟨u, hu, fun r hr => hregs r (hr.resolve_right fun hne => hne x y n rfl)⟩
  · have hover : exec i (s.withFb g) = .next (t.withFb g) := (exec_withFb hi s g).trans (congrArg (answerWithFb g) h)
    exact ⟨t.withFb g, hover, fun r _ => State.withFb_reg t g r⟩

/-- Settles O38: an instruction other than CLS and DRW commutes with the choice of the framebuffer, so it neither writes a
pixel nor reads one; the registers after CLS and DRW, VF apart, are the ones before it. -/
theorem screenChangesOnlyByClsAndDrw : Obligations.ScreenChangesOnlyByClsAndDrw :=
  ⟨fun _ _ => step_fb_ne, fun _ _ _ g => exec_withFb_regs g⟩

end Sys2Proof.Machine
end

section
/-!
PROOFS. 60_exceptions.md: the tick that ends every completed frame, and the sound timer's transition to zero it reports.
-/
namespace Sys2Proof.Machine

/-- A frame whose phase 2 raised no fault is its phase 2, then render and tick (R100, R110, R111). -/
theorem step_completed {s u : State} {k : KeyMap} (hrun : s.Running) (hpoll : s.frameInput.poll = .keys k)
    (hphase : phaseTwo s.frameInput.kchoice (s.clearOutputs.setKeys k) = .next u) (hu : u.Running) :
    step s = .next u.renderPhase.timerPhase.nextInputs := by
  rw [step_keys s hrun hpoll, hphase, ← u.finish_running hu]
  rfl

/-- What the tick reports of a timer: non-zero before and zero after (R245). -/
theorem zeroTransition_iff (before after : Byte) :
    zeroTransition before after = true ↔ before.toNat ≠ 0 ∧ after.toNat = 0 := by
  simp [zeroTransition, ← BitVec.toNat_inj]

/-- Settles O51: render leaves the timers as phase 2 left them, and the one tick that follows takes each down by one. -/
theorem everyCompletedFrameTicksOnce : Obligations.EveryCompletedFrameTicksOnce := by
  intro s u k hrun hpoll hphase hu
  refine ⟨_, step_completed hrun hpoll hphase hu, ?dt, ?st, zeroTransition_iff _ _⟩
  case dt => simp [tickDown_toNat]
  case st => simp [tickDown_toNat]

end Sys2Proof.Machine
end

section
/-!
PROOFS. 30_encoding.md: the decoder and the encoder undo each other, and the words the decoder rejects are the illegal ones.
-/
namespace Sys2Proof

/-! ### Decoding what was encoded (R74, R75) -/

theorem addressWord_ne {c : Nibble} {a b : Addr} (h : a ≠ b) : addressWord c a ≠ addressWord c b := fun heq =>
  h (by rw [← fieldNNN_addressWord c a, heq, fieldNNN_addressWord])

/-- Every encoded instruction carries its class and its selector, so the dispatch of R75 takes its row. -/
theorem decodeWord_encode {p : SysPolicy} {i : Instr} (hwf : i.wellFormed = true)
    (hsys : p = .nop ∨ ∀ nnn, i ≠ .sys nnn) : decodeWord p (encode i) = .instr i := by
  cases i
  case cls => exact Machine.decodeWord_cls p
  case ret => exact Machine.decodeWord_ret p
  case sys nnn =>
    obtain rfl : p = .nop := hsys.resolve_right fun h => h nnn rfl
    simp only [Instr.wellFormed, Bool.and_eq_true, bne_iff_ne] at hwf
    obtain ⟨hE0, hEE⟩ := hwf
    have hcls : addressWord 0x0#4 nnn ≠ 0x00E0#16 := addressWord_ne hE0
    have hret : addressWord 0x0#4 nnn ≠ 0x00EE#16 := addressWord_ne hEE
    simp [encode, decodeWord, decode0, hcls, hret]
  case skp | sknp => simp [encode, decodeWord, decodeE]
  case ldVxDt | ldVxK | ldDtVx | ldStVx | addI | ldF | ldB | ldMemVx | ldVxMem => simp [encode, decodeWord, decodeF]
  case ldReg | orReg | andReg | xorReg | addReg | sub | shr | subn | shl => simp [encode, decodeWord, decode8]
  -- The other classes have one row each.
  all_goals simp [encode, decodeWord]

/-- SYS apart, the policy has no part in it. -/
theorem decodeWord_encode_anyPolicy (i : Instr) (hwf : i.wellFormed = true := by rfl)
    (hsys : ∀ nnn, i ≠ .sys nnn := by nofun) (p : SysPolicy) : decodeWord p (encode i) = .instr i :=
  decodeWord_encode hwf (.inr hsys)

/-- Settles O2: the two bytes of the word are the word, and its fields are those it was built from. -/
theorem decodingAnEncodedInstructionGivesItBack : Obligations.DecodingAnEncodedInstructionGivesItBack :=
  fun p i hwf hsys => by rw [decodeBytes_bytesOfWord, decodeWord_encode hwf hsys]

/-! ### What decoding a word answers -/

/-- The words of R77. -/
def Illegal (p : SysPolicy) (w : Word) : Prop :=
  (fieldC w = 0x0#4 ∧ p = .fault ∧ w ≠ 0x00E0#16 ∧ w ≠ 0x00EE#16) ∨
  (fieldC w = 0x5#4 ∧ fieldN w ≠ 0#4) ∨
  (fieldC w = 0x8#4 ∧ fieldN w ∈ [0x8#4, 0x9#4, 0xA#4, 0xB#4, 0xC#4, 0xD#4, 0xF#4]) ∨
  (fieldC w = 0x9#4 ∧ fieldN w ≠ 0#4) ∨
  (fieldC w = 0xE#4 ∧ fieldNN w ∉ [0x9E#8, 0xA1#8]) ∨
  (fieldC w = 0xF#4 ∧
    fieldNN w ∉ [0x07#8, 0x0A#8, 0x15#8, 0x18#8, 0x1E#8, 0x29#8, 0x33#8, 0x55#8, 0x65#8])

/-- An answer is right for w: an instruction whose word w is where w is legal, the DecodeError of w itself where it is not. -/
def RightAnswer (illegal : Prop) (w : Word) : Decoded → Prop
  | .instr i => ¬illegal ∧ i.wellFormed = true ∧ encode i = w
  | .decodeError w' => illegal ∧ w' = w
  | .truncated => False

theorem addressWord_of_class {w : Word} {c : Nibble} (hc : fieldC w = c) : addressWord c (fieldNNN w) = w :=
  hc ▸ addressWord_fields w

theorem byteWord_of_class {w : Word} {c : Nibble} (hc : fieldC w = c) : byteWord c (fieldX w) (fieldNN w) = w :=
  hc ▸ byteWord_fields w

theorem byteWord_of_selector {w : Word} {c : Nibble} {nn : Byte} (hc : fieldC w = c) (hnn : fieldNN w = nn) :
    byteWord c (fieldX w) nn = w := hnn ▸ byteWord_of_class hc

theorem nibbleWord_of_class {w : Word} {c : Nibble} (hc : fieldC w = c) :
    nibbleWord c (fieldX w) (fieldY w) (fieldN w) = w := hc ▸ nibbleWord_fields w

theorem nibbleWord_of_selector {w : Word} {c n : Nibble} (hc : fieldC w = c) (hn : fieldN w = n) :
    nibbleWord c (fieldX w) (fieldY w) n = w := hn ▸ nibbleWord_of_class hc

theorem decode0_rightAnswer (p : SysPolicy) {w : Word} (hc : fieldC w = 0x0#4) :
    RightAnswer (p = .fault ∧ w ≠ 0x00E0#16 ∧ w ≠ 0x00EE#16) w (decode0 p w) := by
  unfold decode0
  split
  next h => exact ⟨fun ⟨_, hcls, _⟩ => hcls h, rfl, h.symm⟩
  split
  next h => exact ⟨fun ⟨_, _, hret⟩ => hret h, rfl, h.symm⟩
  next hcls hret =>
    cases p with
    | fault => exact ⟨⟨rfl, hcls, hret⟩, rfl⟩
    | nop =>
      have hword : addressWord 0x0#4 (fieldNNN w) = w := addressWord_of_class hc
      refine ⟨nofun, ?_, hword⟩
      have hE0 : fieldNNN w ≠ 0x0E0#12 := fun h => hcls (hword ▸ h ▸ rfl)
      have hEE : fieldNNN w ≠ 0x0EE#12 := fun h => hret (hword ▸ h ▸ rfl)
      simp [Instr.wellFormed, hE0, hEE]

/-- The undefined n of class 0x8 are the ones that are no selector. -/
theorem mem_of_no_selector8 : ∀ n : Nibble, n ∉ [0x0#4, 0x1#4, 0x2#4, 0x3#4, 0x4#4, 0x5#4, 0x6#4, 0x7#4, 0xE#4] →
    n ∈ [0x8#4, 0x9#4, 0xA#4, 0xB#4, 0xC#4, 0xD#4, 0xF#4] := by decide

theorem decode8_rightAnswer {w : Word} (hc : fieldC w = 0x8#4) :
    RightAnswer (fieldN w ∈ [0x8#4, 0x9#4, 0xA#4, 0xB#4, 0xC#4, 0xD#4, 0xF#4]) w (decode8 w) := by
  unfold decode8
  split
  case h_10 => exact ⟨mem_of_no_selector8 _ (by simp_all), rfl⟩
  all_goals next hn => exact ⟨by rw [hn]; decide, rfl, nibbleWord_of_selector hc hn⟩

theorem decodeE_rightAnswer {w : Word} (hc : fieldC w = 0xE#4) :
    RightAnswer (fieldNN w ∉ [0x9E#8, 0xA1#8]) w (decodeE w) := by
  unfold decodeE
  split
  case h_3 => exact ⟨by simp_all, rfl⟩
  all_goals next hnn => exact ⟨by rw [hnn]; decide, rfl, byteWord_of_selector hc hnn⟩

theorem decodeF_rightAnswer {w : Word} (hc : fieldC w = 0xF#4) :
    RightAnswer (fieldNN w ∉ [0x07#8, 0x0A#8, 0x15#8, 0x18#8, 0x1E#8, 0x29#8, 0x33#8, 0x55#8, 0x65#8]) w (decodeF w) := by
  unfold decodeF
  split
  case h_10 => exact ⟨by simp_all, rfl⟩
  all_goals next hnn => exact ⟨by rw [hnn]; decide, rfl, byteWord_of_selector hc hnn⟩

/-- The one selector of the classes 0x5 and 0x9: n = 0. -/
theorem ite_rightAnswer {w : Word} {i : Instr} (hwf : i.wellFormed = true) (hi : fieldN w = 0#4 → encode i = w) :
    RightAnswer (fieldN w ≠ 0#4) w (if fieldN w = 0#4 then .instr i else .decodeError w) := by
  split
  next hn => exact ⟨not_not_intro hn, hwf, hi hn⟩
  next hn => exact ⟨hn, rfl⟩

theorem RightAnswer.congr {a b : Prop} {w : Word} {d : Decoded} (h : RightAnswer a w d) (hab : b ↔ a) :
    RightAnswer b w d := propext hab ▸ h

theorem not_illegal_of_class {p : SysPolicy} {w : Word} {c : Nibble} (hc : fieldC w = c)
    (hlegal : c ∉ [0x0#4, 0x5#4, 0x8#4, 0x9#4, 0xE#4, 0xF#4]) : ¬Illegal p w := by
  subst hc
  rintro (⟨h, -⟩ | ⟨h, -⟩ | ⟨h, -⟩ | ⟨h, -⟩ | ⟨h, -⟩ | ⟨h, -⟩) <;> exact hlegal (by rw [h]; decide)

/-- The decoder's last arm is class 0xF. -/
theorem class_eq_F : ∀ c : Nibble, c ∉ [0x0#4, 0x1#4, 0x2#4, 0x3#4, 0x4#4, 0x5#4, 0x6#4, 0x7#4, 0x8#4, 0x9#4, 0xA#4, 0xB#4,
    0xC#4, 0xD#4, 0xE#4] → c = 0xF#4 := by decide

theorem decodeWord_rightAnswer (p : SysPolicy) (w : Word) : RightAnswer (Illegal p w) w (decodeWord p w) := by
  unfold decodeWord
  generalize hc : fieldC w = c
  split
  case h_1 => exact (decode0_rightAnswer p hc).congr (by simp [Illegal, hc])
  case h_6 => exact (ite_rightAnswer rfl (nibbleWord_of_selector hc)).congr (by simp [Illegal, hc])
  case h_9 => exact (decode8_rightAnswer hc).congr (by simp [Illegal, hc])
  case h_10 => exact (ite_rightAnswer rfl (nibbleWord_of_selector hc)).congr (by simp [Illegal, hc])
  case h_15 => exact (decodeE_rightAnswer hc).congr (by simp [Illegal, hc])
  case h_16 =>
    obtain rfl : c = 0xF#4 := class_eq_F c (by simp_all)
    exact (decodeF_rightAnswer hc).congr (by simp [Illegal, hc])
  case h_2 | h_3 | h_11 | h_12 => exact ⟨not_illegal_of_class hc (by decide), rfl, addressWord_of_class hc⟩
  case h_4 | h_5 | h_7 | h_8 | h_13 => exact ⟨not_illegal_of_class hc (by decide), rfl, byteWord_of_class hc⟩
  case h_14 => exact ⟨not_illegal_of_class hc (by decide), rfl, nibbleWord_of_class hc⟩

/-- Settles O1: the fields of a written-out word are computed. -/
theorem wordsDecodeToTheirInstructions : Obligations.WordsDecodeToTheirInstructions := by
  unfold Obligations.WordsDecodeToTheirInstructions
  decide

/-- Settles O3: an answered instruction is a right one. -/
theorem encodingADecodedWordGivesItBack : Obligations.EncodingADecodedWordGivesItBack := by
  intro p w i hi
  have hright := decodeWord_rightAnswer p w
  rw [hi] at hright
  obtain ⟨-, hwf, hencode⟩ := hright
  exact ⟨hwf, hencode⟩

/-- Settles O4: of the three answers only DecodeError is right for an illegal word, and only with the word itself. -/
theorem exactlyTheIllegalWordsFailToDecode : Obligations.ExactlyTheIllegalWordsFailToDecode := by
  intro p w
  have hright := decodeWord_rightAnswer p w
  cases hd : decodeWord p w with
  | instr i =>
    rw [hd] at hright
    obtain ⟨hlegal, -⟩ := hright
    exact ⟨⟨nofun, fun hill => absurd hill hlegal⟩, nofun, nofun⟩
  | decodeError w' =>
    rw [hd] at hright
    obtain ⟨hill, rfl⟩ := hright
    exact ⟨⟨fun _ => hill, fun _ => ⟨w', rfl⟩⟩, fun _ h => (Decoded.decodeError.inj h).symm, nofun⟩
  | truncated =>
    rw [hd] at hright
    exact hright.elim

end Sys2Proof
end

section
/-!
PROOFS. 40_frame_cycle.md R106: what an instruction can do, said once, and the rules about every instruction that follow
from it.
-/
namespace Sys2Proof.Machine

/-! ### What an instruction may do, and that each does one of these -/

/-- The registers an instruction writes: those it names, and VF as a flag (10_state.md R22). -/
def WritesReg (i : Instr) (r : RegIx) : Prop := destinations i r ∨ (r = vf ∧ flagWriter i)

/-- The instructions that write I (10_state.md R24). -/
def WritesIndex (i : Instr) : Prop :=
  ∃ x nnn, i = .ldI nnn ∨ i = .addI x ∨ i = .ldF x ∨ i = .ldMemVx x ∨ i = .ldVxMem x

/-- The PCs an instruction at s may go on at (R105, 41_control_flow.md R120). -/
def MayMoveTo (i : Instr) (s : State) (a : Word) : Prop :=
  a = s.pc + 2#16 ∨ (a = s.pc + 4#16 ∧ skipFamily i) ∨ overwritesPc i

/-- The states an instruction may leave, each with what it takes to leave it. -/
inductive Effect (i : Instr) (s : State) : State → Prop
  | fault (k : FaultKind) : Effect i s (s.setStatus (.faulted k))
  | jump (a : Word) (ha : MayMoveTo i s a) : Effect i s (s.setPc a)
  | call (nnn : Addr) (hi : i = .call nnn) (hroom : s.stackFull = false) :
      Effect i s ((s.push s.advance.pc).setPc (addrOperand nnn))
  | ret (a : Word) (rest : List Word) (hi : i = .ret) (hstack : s.stack = a :: rest) :
      Effect i s ((s.setStack rest).setPc a)
  | assign (v : Vector Byte 16) (a : Word) (hv : ∀ r : RegIx, v[r.toNat] ≠ s.reg r → WritesReg i r)
      (ha : a ≠ s.index → WritesIndex i) : Effect i s { s.advance with v := v, index := a }
  | draw (v : Vector Byte 16) (fb : Framebuffer) (hi : writesScreen i)
      (hv : ∀ r : RegIx, v[r.toNat] ≠ s.reg r → WritesReg i r) :
      Effect i s { s.advance with v := v, fb := fb, dirty := true }
  | store (addr : Nat) (l : List Byte) (a : Word) (hi : ∃ x, i = .ldB x ∨ i = .ldMemVx x)
      (hfits : addr + l.length ≤ 0x1000) (ha : a ≠ s.index → WritesIndex i) :
      Effect i s ((s.writeBytes addr l).advance.setIndex a)
  | delay (x : RegIx) (hi : i = .ldDtVx x) : Effect i s (s.advance.setDt (s.reg x))
  | sound (x : RegIx) (hi : i = .ldStVx x) : Effect i s (s.advance.setSt (s.reg x))
  | keyWait (x : RegIx) (hi : i = .ldVxK x) : Effect i s (s.advance.setWait (.waiting x s.keys))

/-- The answer is a next state, and one the instruction may leave. -/
def Answers (i : Instr) (s : State) (r : Result) : Prop := ∃ t, r = .next t ∧ Effect i s t

variable {i : Instr} {s t : State}

/-- An instruction's one check, made before it writes anything (R170, R238). -/
theorem answers_check {c : Prop} [Decidable c] {k : FaultKind} (ht : c → Effect i s t) :
    Answers i s (if c then .next t else raise k s) := by
  split
  next hc => exact ⟨t, rfl, ht hc⟩
  next => exact ⟨_, rfl, .fault k⟩

theorem effect_skip (hi : skipFamily i) (c : Bool) : Effect i s (s.advance.skipIf c) := by
  rw [advance_skipIf_eq]
  refine .jump _ ?_
  cases c
  · exact .inl rfl
  · exact .inr (.inl ⟨rfl, hi⟩)

theorem effect_setReg {x : RegIx} (hi : destinations i x) (b : Byte) : Effect i s (s.advance.setReg x b) := by
  refine .assign (s.advance.setReg x b).v s.index (fun r hr => ?_) (absurd rfl)
  obtain rfl : r = x := not_not.mp fun hne => hr (reg_setReg_of_ne s.advance b hne)
  exact .inl hi

theorem effect_commit {x : RegIx} (hi : destinations i x) (hflag : flagWriter i) (f : Flagged) :
    Effect i s (s.advance.commit x f) := by
  rw [State.commit_eq]
  refine .assign _ s.index (fun r hr => ?_) (absurd rfl)
  have hreg := reg_commit s.advance x r f
  by_cases hvf : r = vf
  · exact .inr ⟨hvf, hflag⟩
  · by_cases hx : r = x
    · exact .inl (hx ▸ hi)
    · rw [if_neg hvf, if_neg hx] at hreg
      exact absurd hreg hr

theorem effect_setIndex (hi : WritesIndex i) (a : Word) : Effect i s (s.advance.setIndex a) :=
  .assign s.v a (fun _ hr => absurd rfl hr) fun _ => hi

theorem effect_registersLoaded (x : RegIx) : Effect (.ldVxMem x) s (registersLoaded x s) := by
  have heq : registersLoaded x s =
      { s.advance with v := (registersLoaded x s).v, index := (registersLoaded x s).index } := by
    rw [registersLoaded, State.setRegsFrom_eq]
    rfl
  rw [heq]
  refine .assign _ _ (fun r hr => .inl (not_lt.mp fun hlt => hr ?_)) fun _ => ⟨x, 0, by simp⟩
  exact (reg_registersLoaded x r s).trans (if_neg (Nat.not_le_of_lt hlt))

theorem effect_draw (x y : RegIx) (n : Nibble) (fb : Framebuffer) (b : Byte) :
    Effect (.drw x y n) s ((s.advance.setScreen fb).setReg vf b) := by
  refine .draw ((s.advance.setScreen fb).setReg vf b).v fb (.inr ⟨x, y, n, rfl⟩) fun r hr => .inr ⟨?_, trivial⟩
  exact not_not.mp fun hne => hr (reg_setReg_of_ne (s.advance.setScreen fb) b hne)

/-- No instruction stops: each leaves one of the states it may leave, its fault included. -/
theorem exec_answers (i : Instr) (s : State) : Answers i s (exec i s) := by
  cases i
  case cls => exact ⟨_, rfl, .draw s.v clearScreen (.inl rfl) fun _ hr => absurd rfl hr⟩
  case ret =>
    cases hstack : s.stack with
    | nil => exact ⟨_, exec_ret_of_stack_nil hstack, .fault _⟩
    | cons a rest => exact ⟨_, exec_ret_of_stack_cons hstack, .ret a rest rfl hstack⟩
  case call nnn =>
    cases hfull : s.stackFull with
    | true => exact ⟨_, if_pos hfull, .fault _⟩
    | false => exact ⟨_, if_neg (by simp [hfull]), .call nnn rfl hfull⟩
  case sys => exact ⟨_, rfl, .jump _ (.inl rfl)⟩
  case jp | jpV0 => exact ⟨_, rfl, .jump _ (.inr (.inr trivial))⟩
  case seImm | sneImm | seReg | sneReg => exact ⟨_, rfl, effect_skip (by trivial) _⟩
  case skp | sknp => exact answers_check fun _ => effect_skip (by trivial) _
  case ldImm | addImm | ldReg | orReg | andReg | xorReg | rnd | ldVxDt => exact ⟨_, rfl, effect_setReg (by exact rfl) _⟩
  case addReg | sub | shr | subn | shl => exact ⟨_, rfl, effect_commit (by exact rfl) (by trivial) _⟩
  case ldI nnn => exact ⟨_, rfl, effect_setIndex ⟨0, nnn, by simp⟩ _⟩
  case addI x => exact ⟨_, rfl, effect_setIndex ⟨x, 0, by simp⟩ _⟩
  case ldF x => exact answers_check fun _ => effect_setIndex ⟨x, 0, by simp⟩ _
  case drw x y n =>
    simp only [exec, execDrw_eq]
    exact answers_check fun _ => effect_draw x y n _ _
  case ldVxK x => exact ⟨_, rfl, .keyWait x rfl⟩
  case ldDtVx x => exact ⟨_, rfl, .delay x rfl⟩
  case ldStVx x => exact ⟨_, rfl, .sound x rfl⟩
  case ldB x =>
    simp only [exec, execLdB_eq]
    exact answers_check fun hin => .store _ (bcdDigits (s.reg x)) s.index ⟨x, .inl rfl⟩ hin (absurd rfl)
  case ldMemVx x =>
    simp only [exec, execLdMemVx_eq]
    refine answers_check fun hin => .store _ _ _ ⟨x, .inr rfl⟩ ?_ fun _ => ⟨x, 0, by simp⟩
    rwa [length_regsUpTo]
  case ldVxMem x =>
    simp only [exec, execLdVxMem_eq]
    exact answers_check fun _ => effect_registersLoaded x

theorem exec_effect (h : exec i s = .next t) : Effect i s t := by
  obtain ⟨t', ht', heffect⟩ := exec_answers i s
  obtain rfl : t' = t := by injection ht'.symm.trans h
  exact heffect

/-! ### What each piece of the state changes by -/

theorem Effect.writesReg (h : Effect i s t) {r : RegIx} (hr : t.reg r ≠ s.reg r) : WritesReg i r := by
  cases h
  case assign v a hv ha => exact hv r hr
  case draw v fb hi hv => exact hv r hr
  all_goals exact absurd (by simp) hr

theorem Effect.writesIndex (h : Effect i s t) (hne : t.index ≠ s.index) : WritesIndex i := by
  cases h
  case assign v a hv ha => exact ha hne
  case store addr l a hi hfits ha => exact ha hne
  all_goals exact absurd rfl hne

theorem Effect.writesStack (h : Effect i s t) (hne : t.stack ≠ s.stack) : ∃ nnn, i = .call nnn ∨ i = .ret := by
  cases h
  case call nnn hi hroom => exact ⟨nnn, .inl hi⟩
  case ret a rest hi hstack => exact ⟨0, .inr hi⟩
  all_goals exact absurd (by simp) hne

theorem Effect.writesDt (h : Effect i s t) (hne : t.dt ≠ s.dt) : ∃ x, i = .ldDtVx x := by
  cases h
  case delay x hi => exact ⟨x, hi⟩
  all_goals exact absurd (by simp) hne

theorem Effect.writesSt (h : Effect i s t) (hne : t.st ≠ s.st) : ∃ x, i = .ldStVx x := by
  cases h
  case sound x hi => exact ⟨x, hi⟩
  all_goals exact absurd (by simp) hne

theorem Effect.writesWait (h : Effect i s t) (hne : t.wait ≠ s.wait) : ∃ x, i = .ldVxK x := by
  cases h
  case keyWait x hi => exact ⟨x, hi⟩
  all_goals exact absurd (by simp) hne

theorem Effect.writesMem (h : Effect i s t) (hne : t.mem ≠ s.mem) : ∃ x, i = .ldB x ∨ i = .ldMemVx x := by
  cases h
  case store addr l a hi hfits ha => exact hi
  all_goals exact absurd rfl hne

theorem Effect.keys_eq (h : Effect i s t) : t.keys = s.keys := by
  cases h <;> simp

/-- No instruction changes the launch data (log 28). -/
theorem Effect.launch_eq (h : Effect i s t) : t.imageLen = s.imageLen ∧ t.config = s.config := by
  cases h <;> simp

theorem Effect.mayMoveTo (h : Effect i s t) (ht : t.Running) : MayMoveTo i s t.pc := by
  cases h
  case fault k => exact absurd ht nofun
  case jump a ha => exact ha
  case call nnn hi hroom => exact hi ▸ .inr (.inr trivial)
  case ret a rest hi hstack => exact hi ▸ .inr (.inr trivial)
  all_goals exact .inl (by simp)

/-! ### The statements -/

/-- Settles O35: of the states an instruction may leave, those that write registers name the rule they do so by. -/
theorem registersChangeOnlyAsDestinationOrFlag : Obligations.RegistersChangeOnlyAsDestinationOrFlag :=
  fun _ _ _ _ h hr => (exec_effect h).writesReg hr

/-- Settles O36: each piece changes only in the states its own instructions may leave. -/
theorem controlStateChangesOnlyByItsInstructions : Obligations.ControlStateChangesOnlyByItsInstructions := by
  intro i s t h
  have heffect := exec_effect h
  exact ⟨heffect.writesIndex, heffect.writesStack, heffect.writesDt, heffect.writesSt, heffect.writesWait, heffect.writesMem,
    heffect.keys_eq, heffect.launch_eq⟩

/-- Settles O37: an instruction that leaves the run going keeps STATUS, and one that does not has raised its fault. -/
theorem pcMovesOnlyAsTheInstructionSays : Obligations.PcMovesOnlyAsTheInstructionSays := by
  intro i s t hs h
  refine ⟨(exec_effect h).mayMoveTo, fun hterminal => ?_⟩
  rcases exec_status h with hsame | hfault
  · exact absurd (hsame.trans hs) hterminal
  · exact hfault

end Sys2Proof.Machine
end

section
/-!
PROOFS. 40_frame_cycle.md: fetch and decode, the three ways a frame can end, and that only a terminal state takes no step.
-/
namespace Sys2Proof.Machine

variable {s t u : State} {k : KeyMap}

/-! ### Phase 2 -/

theorem phaseTwo_waiting {q : Nibble} {r : RegIx} {captured : KeyMap} (hwait : s.wait = .waiting r captured) :
    phaseTwo q s = .next (s.resolveWait r captured q) := by
  rw [phaseTwo, hwait]

theorem phaseTwo_instr {q : Nibble} {i : Instr} (hwait : s.wait = .idle) (hfetch : s.fetchDecode = .instr i) :
    phaseTwo q s = exec i s := by
  rw [phaseTwo, hwait, stepInstruction, hfetch]

theorem phaseTwo_fault {q : Nibble} {kind : FaultKind} (hwait : s.wait = .idle) (hfetch : s.fetchDecode = .fault kind) :
    phaseTwo q s = .next (s.setStatus (.faulted kind)) := by
  rw [phaseTwo, hwait, stepInstruction, hfetch]
  rfl

/-- Phase 2 always answers: an instruction does, and so does a wait or the fault of a fetch. -/
theorem exists_phaseTwo_next (q : Nibble) (s : State) : ∃ u, phaseTwo q s = .next u := by
  cases hwait : s.wait with
  | waiting r captured => exact ⟨_, phaseTwo_waiting hwait⟩
  | idle =>
    cases hfetch : s.fetchDecode with
    | fault kind => exact ⟨_, phaseTwo_fault hwait hfetch⟩
    | instr i =>
      obtain ⟨u, hu, -⟩ := exec_answers i s
      exact ⟨u, (phaseTwo_instr hwait hfetch).trans hu⟩

/-- Phase 2 leaves STATUS as it was, or takes a fault and commits nothing. -/
theorem phaseTwo_status {q : Nibble} (h : phaseTwo q s = .next u) :
    u.status = s.status ∨ ∃ kind, u = s.setStatus (.faulted kind) := by
  obtain ⟨r, c, -, rfl⟩ | ⟨i, -, -, hexec⟩ | ⟨kind, -, -, rfl⟩ := phaseTwo_cases s h
  · exact .inl (State.resolveWait_status s r c q)
  · exact exec_status hexec
  · exact .inr ⟨kind, rfl⟩

/-- Phase 2 drives no port. -/
theorem phaseTwo_renderOut {q : Nibble} (h : phaseTwo q s = .next u) : u.renderOut = s.renderOut := by
  obtain ⟨r, c, -, rfl⟩ | ⟨i, -, -, hexec⟩ | ⟨kind, -, -, rfl⟩ := phaseTwo_cases s h
  · exact State.resolveWait_renderOut s r c q
  · obtain ⟨hrender, -⟩ := exec_ports hexec
    exact hrender
  · rfl

/-! ### A whole frame -/

/-- The end of a frame that raised no fault: render, tick and the next inputs (R110, R111). -/
def completedFrame (u : State) : State := u.renderPhase.timerPhase.nextInputs

/-- What a frame that polled k and raised a fault leaves of s (R112). -/
def faultedFrame (k : KeyMap) (kind : FaultKind) (s : State) : State :=
  ((s.clearOutputs.setKeys k).setStatus (.faulted kind)).nextInputs

/-- What a frame that polled Stop leaves of s (R101). -/
def stoppedFrame (s : State) : State := (s.clearOutputs.setStatus .stopped).nextInputs

theorem step_stop (hrun : s.Running) (hpoll : s.frameInput.poll = .stop) : step s = .next (stoppedFrame s) := by
  simp only [step, stepCore, hrun, runFrame, hpoll, stoppedFrame]

theorem step_faulted {kind : FaultKind} (hrun : s.Running) (hpoll : s.frameInput.poll = .keys k)
    (hphase : phaseTwo s.frameInput.kchoice (s.clearOutputs.setKeys k) =
      .next ((s.clearOutputs.setKeys k).setStatus (.faulted kind))) : step s = .next (faultedFrame k kind s) := by
  rw [step_keys s hrun hpoll, hphase]
  rfl

/-- Everything a frame can do: stop, complete its phase 2, or take the fault of its phase 2. -/
theorem frame_cases (h : step s = .next t) :
    (s.frameInput.poll = .stop ∧ t = stoppedFrame s) ∨
    (∃ k u, s.frameInput.poll = .keys k ∧ phaseTwo s.frameInput.kchoice (s.clearOutputs.setKeys k) = .next u ∧
      u.Running ∧ t = completedFrame u) ∨
    (∃ k kind, s.frameInput.poll = .keys k ∧ t = faultedFrame k kind s) := by
  obtain ⟨hrun, ⟨hpoll, rfl⟩ | ⟨k, u, hpoll, hphase, rfl⟩⟩ := step_cases s h
  · exact .inl ⟨hpoll, rfl⟩
  · rcases phaseTwo_status hphase with hsame | ⟨kind, rfl⟩
    · have hu : u.Running := hsame.trans hrun
      exact .inr (.inl ⟨k, u, hpoll, hphase, hu, congrArg State.nextInputs (u.finish_running hu)⟩)
    · exact .inr (.inr ⟨k, kind, hpoll, rfl⟩)

/-- A run that goes on has completed its frame. -/
theorem frame_completed (h : step s = .next t) (ht : t.Running) :
    ∃ k u, s.frameInput.poll = .keys k ∧ phaseTwo s.frameInput.kchoice (s.clearOutputs.setKeys k) = .next u ∧
      u.Running ∧ t = completedFrame u := by
  obtain ⟨-, rfl⟩ | hcompleted | ⟨k, kind, -, rfl⟩ := frame_cases h
  · exact absurd ht nofun
  · exact hcompleted
  · exact absurd ht nofun

theorem exists_step_next (hrun : s.Running) : ∃ t, step s = .next t := by
  cases hpoll : s.frameInput.poll with
  | stop => exact ⟨_, step_stop hrun hpoll⟩
  | keys k =>
    obtain ⟨u, hu⟩ := exists_phaseTwo_next s.frameInput.kchoice (s.clearOutputs.setKeys k)
    exact ⟨u.finish.nextInputs, by rw [step_keys s hrun hpoll, hu, finishFrame]⟩

/-- Settles O39: every instruction answers one of the states it may leave, so phase 2 and the frame have a next state. -/
theorem everyRunningStateHasANextFrame : Obligations.EveryRunningStateHasANextFrame :=
  ⟨fun i s => (exec_answers i s).imp fun _ h => h.1, fun _ => exists_step_next⟩

theorem step_of_stopped (h : s.status = .stopped) : step s = .fault .stopped := by
  rw [step, stepCore, h]

theorem step_of_faulted {kind : FaultKind} (h : s.status = .faulted kind) : step s = .fault (.faulted kind) := by
  rw [step, stepCore, h]

/-- Settles O42: a running state has a next one, and the two terminal statuses answer their own fault. -/
theorem onlyTerminalStatesTakeNoStep : Obligations.OnlyTerminalStatesTakeNoStep := by
  intro s
  refine ⟨⟨fun hterminal t h => hterminal (step_cases s h).1, fun hnone hrun => ?_⟩, fun r hr => ?_, step_of_stopped,
    fun _ => step_of_faulted⟩
  · obtain ⟨t, ht⟩ := exists_step_next hrun
    exact hnone t ht
  · cases hstatus : s.status with
    | running =>
      obtain ⟨t, ht⟩ := exists_step_next hstatus
      exact nomatch ht.symm.trans hr
    | stopped => exact nomatch (step_of_stopped hstatus).symm.trans hr
    | faulted kind => exact nomatch (step_of_faulted hstatus).symm.trans hr

/-! ### What a frame that executes nothing leaves -/

theorem stoppedFrame_keepsBut (s : State) : KeepsBut [.status, .inputs, .outputs] s (stoppedFrame s) := fun p hp => by
  cases p
  case status | inputs | outputs => exact absurd hp (by simp)
  all_goals simp [Piece.Same, stoppedFrame]

theorem faultedFrame_keepsBut (k : KeyMap) (kind : FaultKind) (s : State) :
    KeepsBut [.status, .keys, .inputs, .outputs] s (faultedFrame k kind s) := fun p hp => by
  cases p
  case status | keys | inputs | outputs => exact absurd hp (by simp)
  all_goals simp [Piece.Same, faultedFrame]

/-- Settles O41: Stop is tested first, and its frame writes STATUS alone. -/
theorem stopEndsTheRunAndDoesNothingElse : Obligations.StopEndsTheRunAndDoesNothingElse := fun s hrun hpoll =>
  ⟨stoppedFrame s, step_stop hrun hpoll, rfl, rfl, rfl, fun _ _ => rfl, stoppedFrame_keepsBut s⟩

/-- Settles O45: of the three ways a frame ends only the fault leaves STATUS Faulted, and it commits nothing. -/
theorem faultedFramesCommitNothing : Obligations.FaultedFramesCommitNothing := by
  intro s t kind h hstatus
  obtain ⟨-, rfl⟩ | ⟨k, u, -, -, hu, rfl⟩ | ⟨k, kind', hpoll, rfl⟩ := frame_cases h
  · exact nomatch hstatus
  · rw [completedFrame, State.nextInputs_status, State.timerPhase_status, State.renderPhase_status, hu] at hstatus
    exact nomatch hstatus
  · exact ⟨⟨k, hpoll, rfl⟩, rfl, rfl, rfl, rfl, faultedFrame_keepsBut k kind' s, step_of_faulted hstatus⟩

/-! ### Fetch and decode (R103, R104) -/

/-- With PC inside the window and the memory, the two bytes there are decoded. -/
theorem fetchDecode_inside (hadmitted : s.fetchAdmitted s.pc.toNat = true) (hin : s.pc.toNat + 1 ≤ 0xFFF) :
    s.fetchDecode =
      decodeFetched s.config.sysPolicy s.pc.toNat [s.readByte s.pc.toNat, s.readByte (s.pc.toNat + 1)] := by
  rw [State.fetchDecode, if_pos hadmitted, memRead_word, if_pos (Nat.succ_le_succ hin)]

theorem fetchDecode_outside (h : s.fetchAdmitted s.pc.toNat = false) : s.fetchDecode = .fault (.memoryFault s.pc.toNat 2) := by
  rw [State.fetchDecode, h]
  rfl

theorem decodeFetched_instr {p : SysPolicy} {a : Nat} {bytes rest : List Byte} {i : Instr}
    (h : decodeBytes p bytes = (.instr i, rest)) : decodeFetched p a bytes = .instr i := by
  rw [decodeFetched, h]

theorem decodeFetched_decodeError {p : SysPolicy} {a : Nat} {hi lo : Byte} {w : Word}
    (h : decodeWord p (wordOfBytes hi lo) = .decodeError w) : decodeFetched p a [hi, lo] = .fault (.decodeError w) := by
  rw [decodeFetched, decodeBytes, h]

/-- The window does not admit what lies outside the image, or outside the memory (20_memory.md R57). -/
theorem fetchAdmitted_eq_false {a : Nat}
    (h : (s.config.fetchWindow = .image ∧ (a < 0x200 ∨ 0x200 + s.imageLen < a + 2)) ∨
      (s.config.fetchWindow = .memory ∧ 0xFFF < a + 1)) : s.fetchAdmitted a = false := by
  obtain ⟨hwindow, hout⟩ | ⟨hwindow, hout⟩ := h
  · simp only [State.fetchAdmitted, hwindow, Bool.and_eq_false_iff, decide_eq_false_iff_not]
    omega
  · simp only [State.fetchAdmitted, hwindow, decide_eq_false_iff_not]
    omega

/-- The keymap and the ports are no part of the fetch. -/
theorem fetchDecode_polled (s : State) (k : KeyMap) : (s.clearOutputs.setKeys k).fetchDecode = s.fetchDecode := rfl

theorem step_fetch_fault {kind : FaultKind} (hrun : s.Running) (hpoll : s.frameInput.poll = .keys k) (hwait : s.wait = .idle)
    (hfetch : s.fetchDecode = .fault kind) : step s = .next (faultedFrame k kind s) :=
  step_faulted hrun hpoll (phaseTwo_fault hwait ((fetchDecode_polled s k).trans hfetch))

theorem step_instr {i : Instr} (hrun : s.Running) (hpoll : s.frameInput.poll = .keys k) (hwait : s.wait = .idle)
    (hfetch : s.fetchDecode = .instr i) (hexec : exec i (s.clearOutputs.setKeys k) = .next u) :
    step s = .next u.finish.nextInputs := by
  have hphase : phaseTwo s.frameInput.kchoice (s.clearOutputs.setKeys k) = .next u :=
    (phaseTwo_instr (s := s.clearOutputs.setKeys k) hwait ((fetchDecode_polled s k).trans hfetch)).trans hexec
  rw [step_keys s hrun hpoll, hphase, finishFrame]

/-- Settles O40: inside the window the two bytes at PC are what is decoded. -/
theorem stepRunsTheDecodedInstruction : Obligations.StepRunsTheDecodedInstruction :=
  fun _ _ _ _ hrun hpoll hwait hadmitted hin hdecode hexec =>
    step_instr hrun hpoll hwait ((fetchDecode_inside hadmitted hin).trans (decodeFetched_instr hdecode)) hexec

/-- Settles O43: the window is tested before anything is read. -/
theorem fetchOutsideTheWindowFaults : Obligations.FetchOutsideTheWindowFaults := fun s k hrun hpoll hwait hout =>
  ⟨_, step_fetch_fault hrun hpoll hwait (fetchDecode_outside (fetchAdmitted_eq_false hout)), rfl, fun _ _ => rfl,
    faultedFrame_keepsBut k _ s⟩

/-- A word's value from its bytes, the one at the lower address the higher (20_memory.md R51). -/
theorem toNat_wordOfBytes (hi lo : Byte) : (wordOfBytes hi lo).toNat = hi.toNat * 256 + lo.toNat := by
  rw [wordOfBytes, BitVec.toNat_append, ← Nat.shiftLeft_add_eq_or_of_lt lo.isLt, Nat.shiftLeft_eq]

/-- Settles O44: the word of that value is the one the two bytes make. -/
theorem illegalWordsRaiseDecodeError : Obligations.IllegalWordsRaiseDecodeError := by
  intro s k w hrun hpoll hwait hadmitted hin hw hdecode
  obtain rfl : w = wordOfBytes (s.readByte s.pc.toNat) (s.readByte (s.pc.toNat + 1)) :=
    BitVec.eq_of_toNat_eq (hw.trans (toNat_wordOfBytes _ _).symm)
  have hfetch := (fetchDecode_inside hadmitted hin).trans (decodeFetched_decodeError hdecode)
  exact ⟨_, step_fetch_fault hrun hpoll hwait hfetch, rfl, fun _ _ => rfl, faultedFrame_keepsBut k _ s⟩

end Sys2Proof.Machine
end

section
/-!
PROOFS. The invariants of the machine: what every step keeps of the memory, the stack, the launch data and DIRTY.
-/
namespace Sys2Proof.Machine

variable {s t u : State}

/-- `t` has the memory, the stack, the configuration and the image's length of `s`. -/
structure SameStore (s t : State) : Prop where
  mem : t.mem = s.mem
  stack : t.stack = s.stack
  config : t.config = s.config
  imageLen : t.imageLen = s.imageLen

/-- What every instruction keeps of memory, stack and launch data, every step keeps: the rest of a frame writes none of them. -/
theorem step_keeps {P : State → Prop} (hsame : ∀ s t, SameStore s t → P s → P t)
    (hexec : ∀ i s t, exec i s = .next t → P s → P t) (h : step s = .next t) (hs : P s) : P t := by
  obtain ⟨-, ⟨-, rfl⟩ | ⟨k, u, -, hphase, rfl⟩⟩ := step_cases s h
  · exact hsame s _ ⟨rfl, rfl, rfl, rfl⟩ hs
  · have hpolled : P (s.clearOutputs.setKeys k) := hsame s _ ⟨rfl, rfl, rfl, rfl⟩ hs
    have hu : P u := by
      obtain ⟨r, c, -, rfl⟩ | ⟨i, -, -, hi⟩ | ⟨kind, -, -, rfl⟩ := phaseTwo_cases _ hphase
      · exact hsame _ _ ⟨by simp, by simp, by simp, by simp⟩ hpolled
      · exact hexec i _ u hi hpolled
      · exact hsame (s.clearOutputs.setKeys k) _ ⟨rfl, rfl, rfl, rfl⟩ hpolled
    exact hsame u _ ⟨by simp, by simp, by simp, by simp⟩ hu

/-! ### Memory -/

theorem SameStore.memoryOk (h : SameStore s t) (hs : s.MemoryOk) : t.MemoryOk := by
  rw [State.MemoryOk, h.config, h.mem]
  exact hs

/-- A store inside the space keeps the canonical form, and no other instruction writes memory. -/
theorem Effect.memoryOk {i : Instr} (h : Effect i s t) (hs : s.MemoryOk) : t.MemoryOk := by
  cases h
  case store addr l a hi hfits ha => exact writeBytes_wf s addr l hs (.inr hfits)
  all_goals exact hs

/-- Settles O54: an admitted store ends by 0x1000, and what it writes is put in canonically. -/
theorem everyStepKeepsTheMemoryCanonical : Obligations.EveryStepKeepsTheMemoryCanonical := fun _ _ hs h =>
  step_keeps (fun _ _ => SameStore.memoryOk) (fun _ _ _ hexec => (exec_effect hexec).memoryOk) h hs

/-! ### Stack -/

/-- CALL's test (41_control_flow.md R122). -/
theorem stackFull_iff (s : State) : s.stackFull = true ↔ s.config.stackLimit = some s.sp := by
  unfold State.stackFull
  cases s.config.stackLimit with
  | none => exact iff_of_false nofun nofun
  | some n => exact beq_iff_eq.trans (eq_comm.trans Option.some_inj.symm)

theorem SameStore.stackOk (h : SameStore s t) (hs : s.StackOk) : t.StackOk := by
  rw [State.StackOk, h.config, State.sp, h.stack]
  exact hs

/-- A CALL that is not full is below the limit, so the push keeps to it; RET makes the stack shorter. -/
theorem Effect.stackOk {i : Instr} (h : Effect i s t) (hs : s.StackOk) : t.StackOk := by
  cases h
  case call nnn hi hroom =>
    intro n hn
    have hne : n ≠ s.sp := fun heq => by
      rw [(stackFull_iff s).mpr (heq ▸ hn)] at hroom
      cases hroom
    exact Nat.lt_of_le_of_ne (hs n hn) (Ne.symm hne)
  case ret a rest hi hstack =>
    intro n hn
    have hle : rest.length + 1 ≤ n := by simpa [State.sp, hstack] using hs n hn
    exact Nat.le_of_succ_le hle
  case store addr l a hi hfits ha =>
    have hstack : ((s.writeBytes addr l).advance.setIndex a).stack = s.stack := State.writeBytes_stack s addr l
    have hconfig : ((s.writeBytes addr l).advance.setIndex a).config = s.config := State.writeBytes_config s addr l
    rw [State.StackOk, State.sp, hstack, hconfig]
    exact hs
  all_goals exact hs

/-- Settles O55: CALL's test of equality is enough at every depth within the limit. -/
theorem everyStepKeepsTheStackBounded : Obligations.EveryStepKeepsTheStackBounded := fun _ _ hs h =>
  step_keeps (fun _ _ => SameStore.stackOk) (fun _ _ _ hexec => (exec_effect hexec).stackOk) h hs

/-! ### Launch data and DIRTY -/

/-- No step changes the launch data (log 28). -/
theorem step_launch_eq (h : step s = .next t) : t.config = s.config ∧ t.imageLen = s.imageLen := by
  refine step_keeps (P := fun u => u.config = s.config ∧ u.imageLen = s.imageLen) ?_ ?_ h ⟨rfl, rfl⟩
  · rintro u v hsame ⟨hconfig, himage⟩
    exact ⟨hsame.config.trans hconfig, hsame.imageLen.trans himage⟩
  · rintro i u v hexec ⟨hconfig, himage⟩
    obtain ⟨himage', hconfig'⟩ := (exec_effect hexec).launch_eq
    exact ⟨hconfig'.trans hconfig, himage'.trans himage⟩

theorem completedFrame_screenOk (u : State) : (completedFrame u).ScreenOk := State.renderPhase_dirty u

theorem step_screenOk (h : step s = .next t) (hs : s.ScreenOk) : t.ScreenOk := by
  obtain ⟨-, rfl⟩ | ⟨k, u, -, -, -, rfl⟩ | ⟨k, kind, -, rfl⟩ := frame_cases h
  · exact hs
  · exact completedFrame_screenOk u
  · exact hs

/-- Settles O56: a frame that completes clears DIRTY, and one that does not has set nothing. -/
theorem everyStepKeepsTheFrameInvariants : Obligations.EveryStepKeepsTheFrameInvariants := fun _ _ h =>
  ⟨step_screenOk h, step_launch_eq h⟩

end Sys2Proof.Machine
end

section
/-!
PROOFS. 40_frame_cycle.md 3 and 4, 60_exceptions.md 3: the key-wait, render, the audio port, and the delay timer over many
frames.
-/
namespace Sys2Proof.Machine

variable {s t u : State} {k : KeyMap}

/-! ### The end of a frame -/

@[simp] theorem completedFrame_status (u : State) : (completedFrame u).status = u.status := State.renderPhase_status u
@[simp] theorem completedFrame_wait (u : State) : (completedFrame u).wait = u.wait := State.renderPhase_wait u
@[simp] theorem completedFrame_keys (u : State) : (completedFrame u).keys = u.keys := State.renderPhase_keys u
@[simp] theorem completedFrame_pc (u : State) : (completedFrame u).pc = u.pc := State.renderPhase_pc u
@[simp] theorem completedFrame_fb (u : State) : (completedFrame u).fb = u.fb := State.renderPhase_fb u
@[simp] theorem completedFrame_dirty (u : State) : (completedFrame u).dirty = false := State.renderPhase_dirty u
@[simp] theorem completedFrame_renderOut (u : State) :
    (completedFrame u).renderOut = if u.dirty then some u.fb else u.renderOut := State.renderPhase_renderOut u

@[simp] theorem completedFrame_dt (u : State) : (completedFrame u).dt = tickDown u.dt :=
  congrArg tickDown (State.renderPhase_dt u)

@[simp] theorem completedFrame_audioOut (u : State) : (completedFrame u).audioOut =
    some (audioEvent (zeroTransition u.st (tickDown u.st)) (tickDown u.st)) := by
  rw [completedFrame, State.nextInputs_audioOut, State.timerPhase_audioOut, State.renderPhase_st]

@[simp] theorem completedFrame_reg (u : State) (r : RegIx) : (completedFrame u).reg r = u.reg r := by
  simp [completedFrame, State.reg]

theorem completedFrame_keepsBut (u : State) :
    KeepsBut [.dirty, .delay, .sound, .inputs, .outputs] u (completedFrame u) := fun p hp => by
  cases p
  case dirty | delay | sound | inputs | outputs => exact absurd hp (by simp)
  all_goals simp [Piece.Same, completedFrame, State.readByte]

/-! ### Key-wait resolution (R107) -/

theorem getLsbD_releasedKeys (captured now : KeyMap) {j : Nat} (hj : j < 16) :
    (releasedKeys captured now).getLsbD j = true ↔ captured.getLsbD j = true ∧ now.getLsbD j = false := by
  rw [releasedKeys_eq, BitVec.getLsbD_and, BitVec.getLsbD_not, decide_eq_true hj, Bool.true_and, Bool.and_eq_true,
    Bool.not_eq_true']

theorem releasedKeys_ne_zero_iff (captured now : KeyMap) :
    releasedKeys captured now ≠ 0#16 ↔ ∃ j, j < 16 ∧ captured.getLsbD j = true ∧ now.getLsbD j = false := by
  constructor
  · intro h
    obtain ⟨j, hj, hbit⟩ := exists_key h
    exact ⟨j, hj, (getLsbD_releasedKeys captured now hj).mp hbit⟩
  · rintro ⟨j, hj, hbit⟩ hzero
    have hset := (getLsbD_releasedKeys captured now hj).mpr hbit
    rw [hzero, BitVec.getLsbD_zero] at hset
    cases hset

/-- What a frame that begins with the wait on r leaves when it polls k. -/
def waitFrame (s : State) (k : KeyMap) (r : RegIx) (captured : KeyMap) : State :=
  completedFrame ((s.clearOutputs.setKeys k).resolveWait r captured s.frameInput.kchoice)

variable {r : RegIx} {captured : KeyMap}

theorem step_waiting (hrun : s.Running) (hpoll : s.frameInput.poll = .keys k) (hwait : s.wait = .waiting r captured) :
    step s = .next (waitFrame s k r captured) :=
  step_completed hrun hpoll (phaseTwo_waiting (s := s.clearOutputs.setKeys k) hwait)
    ((State.resolveWait_status _ r captured _).trans hrun)

@[simp] theorem waitFrame_keys : (waitFrame s k r captured).keys = k :=
  (completedFrame_keys _).trans (State.resolveWait_keys _ r captured _)

@[simp] theorem waitFrame_status : (waitFrame s k r captured).status = s.status :=
  (completedFrame_status _).trans (State.resolveWait_status _ r captured _)

@[simp] theorem waitFrame_pc : (waitFrame s k r captured).pc = s.pc :=
  (completedFrame_pc _).trans (State.resolveWait_pc _ r captured _)

theorem polled_keepsBut (s : State) (k : KeyMap) : KeepsBut [.keys, .outputs] s (s.clearOutputs.setKeys k) := fun p hp => by
  cases p
  case keys | outputs => exact absurd hp (by simp)
  all_goals simp [Piece.Same]

theorem resolveWait_keepsBut_wait (s : State) (r : RegIx) (captured : KeyMap) (q : Nibble) :
    KeepsBut [.wait] s (s.resolveWait r captured q) := fun p hp => by
  cases p
  case wait => exact absurd hp (by simp)
  all_goals simp [Piece.Same, State.readByte]

theorem waitFrame_keepsBut (s : State) (k : KeyMap) (r : RegIx) (captured : KeyMap) :
    KeepsBut [.keys, .wait, .dirty, .delay, .sound, .inputs, .outputs] s (waitFrame s k r captured) :=
  (((polled_keepsBut s k).trans (resolveWait_keepsBut_wait _ r captured _)).trans (completedFrame_keepsBut _)).mono (by simp)

/-- With no captured key up, the keys now down join the captured ones and no register is written. -/
theorem waitFrame_held (s : State) (r : RegIx) (h : releasedKeys captured k = 0#16) :
    (waitFrame s k r captured).wait = .waiting r (captured ||| k) ∧ KeepsRegsBut [] s (waitFrame s k r captured) := by
  have hheld : (s.clearOutputs.setKeys k).resolveWait r captured s.frameInput.kchoice =
      (s.clearOutputs.setKeys k).setWait (.waiting r (captured ||| k)) := if_pos h
  rw [waitFrame, hheld]
  exact ⟨completedFrame_wait _, fun r' _ => completedFrame_reg _ r'⟩

/-- With a captured key up, the chosen one is written and the wait ends. -/
theorem waitFrame_released (s : State) (r : RegIx) (h : releasedKeys captured k ≠ 0#16) :
    (waitFrame s k r captured).wait = .idle ∧ KeepsRegsBut [r] s (waitFrame s k r captured) ∧
      ((waitFrame s k r captured).reg r).toNat = (chooseKey (releasedKeys captured k) s.frameInput.kchoice).toNat := by
  have hreleased : (s.clearOutputs.setKeys k).resolveWait r captured s.frameInput.kchoice =
      ((s.clearOutputs.setKeys k).setReg r
        ((chooseKey (releasedKeys captured k) s.frameInput.kchoice).setWidth 8)).setWait .idle := if_neg h
  rw [waitFrame, hreleased]
  refine ⟨completedFrame_wait _, fun r' hr' => ?others, ?target⟩
  case others =>
    rw [completedFrame_reg, State.setWait_reg]
    exact setReg_keepsRegsBut (s.clearOutputs.setKeys k) r _ r' hr'
  case target =>
    rw [completedFrame_reg, State.setWait_reg, reg_setReg_same]
    exact BitVec.toNat_setWidth_of_le (by decide)

/-- Settles O46: Rel is the captured keys now up, and the wait goes by whether there is one. -/
theorem aWaitFrameUpdatesTheWait : Obligations.AWaitFrameUpdatesTheWait := by
  intro s k captured r hrun hpoll hwait
  refine ⟨_, step_waiting hrun hpoll hwait, waitFrame_status.trans hrun, waitFrame_keys, waitFrame_keepsBut s k r captured,
    fun hheld => ?held, fun hreleased => ?released⟩
  case held =>
    refine waitFrame_held s r (not_not.mp fun hne => ?_)
    obtain ⟨j, hj, hup⟩ := (releasedKeys_ne_zero_iff captured k).mp hne
    exact hheld j hj hup
  case released =>
    have hne : releasedKeys captured k ≠ 0#16 := (releasedKeys_ne_zero_iff captured k).mpr hreleased
    obtain ⟨hidle, hregs, hkey⟩ := waitFrame_released s r hne
    have hj := (chooseKey (releasedKeys captured k) s.frameInput.kchoice).isLt
    obtain ⟨hcaptured, hup⟩ := (getLsbD_releasedKeys captured k hj).mp (chooseKey_mem hne s.frameInput.kchoice)
    exact ⟨hidle, hregs, _, hj, hcaptured, hup, hkey⟩

/-- Settles O47: the draw that names a released key chooses it. -/
theorem everyReleasedKeyCanBeChosen : Obligations.EveryReleasedKeyCanBeChosen := by
  rintro s k captured r _ hrun hpoll hwait hcaptured hup rfl
  have hbit := (getLsbD_releasedKeys captured k s.frameInput.kchoice.isLt).mpr ⟨hcaptured, hup⟩
  have hne := (releasedKeys_ne_zero_iff captured k).mpr ⟨_, s.frameInput.kchoice.isLt, hcaptured, hup⟩
  obtain ⟨hidle, -, hkey⟩ := waitFrame_released s r hne
  exact ⟨_, step_waiting hrun hpoll hwait, hidle, hkey.trans (congrArg _ (chooseKey_drawn hbit))⟩

/-- Captured keys all held: joining the keys now down captures exactly those. -/
theorem captured_or_now (h : captured &&& ~~~k = 0#16) : captured ||| k = k := by
  refine BitVec.eq_of_getLsbD_eq fun j hj => ?_
  have hbit := congrArg (fun m => BitVec.getLsbD m j) h
  simp only [BitVec.getLsbD_and, BitVec.getLsbD_not, decide_eq_true hj, Bool.true_and, BitVec.getLsbD_zero] at hbit
  rw [BitVec.getLsbD_or]
  revert hbit
  cases captured.getLsbD j <;> cases k.getLsbD j <;> simp

/-- The wait on r has lasted from s to t with nothing executed, and where the next frame polls k, it holds the keys captured by
then. -/
def StillWaiting (r : RegIx) (s t : State) (k : KeyMap) (polls : Prop) : Prop :=
  (∃ c, t.wait = .waiting r c ∧ (polls → c &&& ~~~k = 0#16)) ∧ t.pc = s.pc ∧ KeepsRegsBut [] s t

/-- Settles O48, by induction on the frames: after each the captured keys are those it polled, which the next one holds. -/
theorem heldKeysNeverEndAWait : Obligations.HeldKeysNeverEndAWait := by
  intro f n r captured k hrunOf hwait hpoll hfirst hnext
  have hstill : ∀ j, j ≤ n → StillWaiting r (f 0) (f j) (k j) (j < n) := by
    intro j
    induction j with
    | zero => exact fun _ => ⟨⟨captured, hwait, hfirst⟩, rfl, fun _ _ => rfl⟩
    | succ j ih =>
      intro hj
      obtain ⟨⟨c, hc, hheld⟩, hpc, hregs⟩ := ih (Nat.le_of_lt hj)
      have hstep := hrunOf j hj
      have hframe := step_waiting (step_cases _ hstep).1 (hpoll j hj) hc
      rw [Host.Outcome.next.inj (hstep.symm.trans hframe)]
      have hzero : c &&& ~~~(k j) = 0#16 := hheld hj
      obtain ⟨hwait', hregs'⟩ := waitFrame_held (f j) r ((releasedKeys_eq c (k j)).trans hzero)
      rw [captured_or_now hzero] at hwait'
      exact ⟨⟨k j, hwait', hnext j⟩, waitFrame_pc.trans hpc, fun r' hr' => (hregs' r' hr').trans (hregs r' hr')⟩
  obtain ⟨⟨c, hc, -⟩, hpc, hregs⟩ := hstill n (Nat.le_refl n)
  exact ⟨⟨c, hc⟩, hpc, hregs⟩

/-! ### Render and audio -/

/-- Settles O49: phase 2 drives no port, so a clean frame's render port stays as it was emptied. -/
theorem renderFollowsDirty : Obligations.RenderFollowsDirty := by
  intro s u k hrun hpoll hphase hu
  have hnone : u.renderOut = none := phaseTwo_renderOut hphase
  refine ⟨completedFrame u, step_completed hrun hpoll hphase hu, completedFrame_fb u, completedFrame_dirty u,
    fun hdirty => ?_, fun hclean => ?_⟩
  · rw [completedFrame_renderOut, if_pos hdirty]
  · rw [completedFrame_renderOut, hclean, hnone]
    rfl

/-- DIRTY after an instruction that took no fault, from a screen with nothing to render. -/
theorem exec_dirty_iff {i : Instr} (h : exec i s = .next t) (hs : s.ScreenOk) (ht : t.Running) :
    t.dirty = true ↔ writesScreen i := by
  constructor
  · intro hdirty
    cases exec_effect h
    case draw v fb hi hv => exact hi
    all_goals simp [hs] at hdirty
  · rintro (rfl | ⟨x, y, n, rfl⟩)
    · cases h
      rfl
    · simp only [exec, execDrw_eq] at h
      split at h <;> cases h
      · rfl
      · exact nomatch ht

/-- Settles O50: phase 2 dirties a clean screen by executing CLS or DRW, and in no other way. -/
theorem exactlyClsAndDrwFramesRender : Obligations.ExactlyClsAndDrwFramesRender := by
  intro s t hs h ht
  obtain ⟨k, u, -, hphase, hu, rfl⟩ := frame_completed h ht
  have hnone : u.renderOut = none := phaseTwo_renderOut hphase
  have hrender : (completedFrame u).renderOut ≠ none ↔ u.dirty = true := by
    rw [completedFrame_renderOut, hnone]
    cases u.dirty <;> simp
  rw [hrender]
  obtain ⟨r, c, hwait, rfl⟩ | ⟨i, hwait, hfetch, hexec⟩ | ⟨kind, -, -, rfl⟩ := phaseTwo_cases _ hphase
  · have hclean : ((s.clearOutputs.setKeys k).resolveWait r c s.frameInput.kchoice).dirty = false :=
      (State.resolveWait_dirty _ r c _).trans hs
    exact iff_of_false (by rw [hclean]; nofun) fun ⟨hidle, _⟩ => nomatch hidle.symm.trans hwait
  · have hi : s.fetchDecode = .instr i := (fetchDecode_polled s k).symm.trans hfetch
    have hidle : s.wait = .idle := hwait
    rw [exec_dirty_iff hexec hs hu, hi]
    simp [hidle, writesScreen]
  · exact nomatch hu

theorem zeroTransition_tickDown_iff (b : Byte) : zeroTransition b (tickDown b) = true ↔ b.toNat = 1 := by
  rw [zeroTransition_iff, tickDown_toNat]
  omega

theorem tickDown_ne_zero_iff (b : Byte) : tickDown b ≠ 0#8 ↔ 1 < b.toNat := by
  rw [ne_eq, ← BitVec.toNat_inj, tickDown_toNat, BitVec.toNat_ofNat]
  omega

/-- Settles O52: the tick reaches zero from 1 alone, and leaves ST above zero from more than 1 alone. -/
theorem audioFollowsTheSoundTimer : Obligations.AudioFollowsTheSoundTimer := by
  intro s u k hrun hpoll hphase hu
  refine ⟨completedFrame u, step_completed hrun hpoll hphase hu, ?_⟩
  simp only [completedFrame_audioOut, audioEvent, zeroTransition_tickDown_iff, tickDown_ne_zero_iff, Option.some_inj]
  refine ⟨fun hone => if_pos hone, fun hmore => ?_, fun hzero => ?_⟩
  · rw [if_neg (by omega), if_pos hmore]
  · rw [if_neg (by omega), if_neg (by omega)]

/-! ### The delay timer (46_timers.md R223) -/

/-- A frame that completes and does not execute LD DT, VX takes DT down by one. -/
theorem step_dt (h : step s = .next t) (ht : t.Running) (hno : ∀ x, s.wait = .idle → s.fetchDecode ≠ .instr (.ldDtVx x)) :
    t.dt.toNat = s.dt.toNat - 1 := by
  obtain ⟨k, u, -, hphase, hu, rfl⟩ := frame_completed h ht
  have hdt : u.dt = s.dt := by
    obtain ⟨r, c, -, rfl⟩ | ⟨i, hwait, hfetch, hexec⟩ | ⟨kind, -, -, rfl⟩ := phaseTwo_cases _ hphase
    · exact State.resolveWait_dt _ r c _
    · by_contra hne
      obtain ⟨x, rfl⟩ := (exec_effect hexec).writesDt hne
      exact hno x hwait hfetch
    · rfl
  rw [completedFrame_dt, tickDown_toNat, hdt]

/-- Settles O53, by induction on the frames: each takes DT down by one and leaves zero at zero. -/
theorem theDelayTimerCountsFrames : Obligations.TheDelayTimerCountsFrames := by
  intro f n hrunOf hrunning hno
  induction n with
  | zero => rfl
  | succ n ih =>
    have hbefore := ih (fun j hj => hrunOf j (Nat.lt_succ_of_lt hj)) (fun j hj => hrunning j (Nat.le_succ_of_le hj))
      fun j hj => hno j (Nat.lt_succ_of_lt hj)
    rw [step_dt (hrunOf n (Nat.lt_succ_self n)) (hrunning _ (Nat.le_refl _)) (hno n (Nat.lt_succ_self n)), hbefore,
      Nat.sub_sub]

end Sys2Proof.Machine
end

section
/-!
PROOFS. 41_control_flow.md and 45_input.md: CALL and its RET, SYS, JP V0, the skips on registers and on keys.
-/
namespace Sys2Proof.Machine

/-! ### CALL and RET (R122, R123) -/

theorem exec_call_room (nnn : Addr) {s : State} (h : s.config.stackLimit ≠ some s.sp) :
    exec (.call nnn) s = .next ((s.push s.advance.pc).setPc (addrOperand nnn)) :=
  if_neg fun hfull => h ((stackFull_iff s).mp hfull)

theorem exec_call_full (nnn : Addr) {s : State} (h : s.config.stackLimit = some s.sp) :
    exec (.call nnn) s = .next (s.setStatus (.faulted (.stackOverflow s.pc))) :=
  if_pos ((stackFull_iff s).mpr h)

theorem call_keepsBut_pc_stack (s : State) (a b : Word) : KeepsBut [.pc, .stack] s ((s.push a).setPc b) :=
  pop_keepsBut_pc_stack s b (a :: s.stack)

/-- Settles O6: the test of CALL is the depth against the limit. -/
theorem callPushesTheReturnAddressAndJumps : Obligations.CallPushesTheReturnAddressAndJumps := fun nnn s =>
  ⟨decodeWord_encode_anyPolicy (.call nnn),
    fun hroom => ⟨_, exec_call_room nnn hroom, rfl, rfl, toNat_addrOperand nnn, setPc_keepsRegs _ _,
      call_keepsBut_pc_stack s _ _⟩,
    fun hfull => ⟨_, exec_call_full nnn hfull, rfl, setStatus_keepsRegs s _, setStatus_keepsBut_status s _⟩⟩

/-- Settles O8: a CALL that completed left its return address on top of the old stack. -/
theorem retUndoesCall : Obligations.RetUndoesCall := by
  intro nnn s t _ hcall ht
  by_cases hfull : s.config.stackLimit = some s.sp
  · obtain rfl := Host.Outcome.next.inj ((exec_call_full nnn hfull).symm.trans hcall)
    exact nomatch ht
  · obtain rfl := Host.Outcome.next.inj ((exec_call_room nnn hfull).symm.trans hcall)
    exact ⟨_, exec_ret_of_stack_cons rfl, rfl, rfl, fun _ _ => rfl, setPc_keepsBut_pc s (s.pc + 2#16)⟩

/-! ### SYS and JP V0 (R124, R125) -/

theorem decodeWord_fault_sys {nnn : Addr} (hcls : nnn ≠ 0x0E0#12) (hret : nnn ≠ 0x0EE#12) :
    decodeWord .fault (addressWord 0x0#4 nnn) = .decodeError (addressWord 0x0#4 nnn) := by
  have hcls' : addressWord 0x0#4 nnn ≠ 0x00E0#16 := addressWord_ne hcls
  have hret' : addressWord 0x0#4 nnn ≠ 0x00EE#16 := addressWord_ne hret
  simp [decodeWord, decode0, hcls', hret']

/-- Settles O9: CLS and RET apart, the policy alone decides on a word of class 0x0. -/
theorem sysOnlyAdvancesPcWhereItIsLegal : Obligations.SysOnlyAdvancesPcWhereItIsLegal := fun nnn s =>
  ⟨fun hcls hret => ⟨decodeWord_encode (i := .sys nnn) (by simp [Instr.wellFormed, hcls, hret]) (.inl rfl),
      decodeWord_fault_sys hcls hret⟩,
    s.advance, rfl, rfl, setPc_keepsRegs s _, advance_keepsBut_pc s⟩

/-- A 12-bit address and a byte have a sum below 2^16. -/
theorem toNat_addrOperand_add_byteOperand (nnn : Addr) (b : Byte) :
    (addrOperand nnn + byteOperand b).toNat = nnn.toNat + b.toNat := by
  have hb : (byteOperand b).toNat = b.toNat := BitVec.toNat_setWidth_of_le (by decide)
  have hnnn := nnn.isLt
  have hlt := b.isLt
  rw [BitVec.toNat_add, toNat_addrOperand, hb]
  omega

/-- Settles O10: the sum never reaches the modulus of PC. -/
theorem jpV0SetsPcToTheSum : Obligations.JpV0SetsPcToTheSum := fun nnn s =>
  ⟨decodeWord_encode_anyPolicy (.jpV0 nnn), _, rfl,
    toNat_addrOperand_add_byteOperand nnn (s.reg 0#4), setPc_keepsRegs s _, setPc_keepsBut_pc s _⟩

/-! ### Skips (R120, R128, R129, R210, R211) -/

theorem decodeWord_class5 (p : SysPolicy) (x y : RegIx) (n : Nibble) : decodeWord p (nibbleWord 0x5#4 x y n) =
    if n = 0#4 then .instr (.seReg x y) else .decodeError (nibbleWord 0x5#4 x y n) := by
  simp [decodeWord]

theorem decodeWord_class9 (p : SysPolicy) (x y : RegIx) (n : Nibble) : decodeWord p (nibbleWord 0x9#4 x y n) =
    if n = 0#4 then .instr (.sneReg x y) else .decodeError (nibbleWord 0x9#4 x y n) := by
  simp [decodeWord]

/-- Settles O12: both are the advance and a skip on the comparison, which SNE negates. -/
theorem registerSkipsSkipOneWord : Obligations.RegisterSkipsSkipOneWord := by
  intro x y s
  refine ⟨fun p n => decodeWord_class5 p x y n, fun p n => decodeWord_class9 p x y n,
    ⟨s.advance.skipIf (s.reg x == s.reg y), rfl, ?equal, skip_keepsRegs s _, skip_keepsBut_pc s _⟩,
    ⟨s.advance.skipIf (s.reg x != s.reg y), rfl, ?unequal, skip_keepsRegs s _, skip_keepsBut_pc s _⟩⟩
  case equal =>
    rw [skip_pc_toNat]
    simp only [beq_iff_eq]
  case unequal =>
    rw [skip_pc_toNat]
    simp only [bne_iff_ne, ite_not]

theorem isHexDigit_iff (b : Byte) : isHexDigit b = true ↔ b.toNat < 16 := decide_eq_true_iff

theorem exec_skp_key {x : RegIx} {s : State} (h : (s.reg x).toNat < 16) :
    exec (.skp x) s = .next (s.advance.skipIf (s.keyDown (s.reg x).toNat)) := if_pos ((isHexDigit_iff _).mpr h)

theorem exec_sknp_key {x : RegIx} {s : State} (h : (s.reg x).toNat < 16) :
    exec (.sknp x) s = .next (s.advance.skipIf (!s.keyDown (s.reg x).toNat)) := if_pos ((isHexDigit_iff _).mpr h)

theorem not_isHexDigit {b : Byte} (h : 16 ≤ b.toNat) : ¬isHexDigit b = true := fun hb =>
  Nat.not_lt_of_le h ((isHexDigit_iff b).mp hb)

/-- Settles O32: SKNP skips on the negated key; from 16 on both raise the fault and commit nothing. -/
theorem keySkipsTestTheKeymap : Obligations.KeySkipsTestTheKeymap := by
  intro x s
  refine ⟨decodeWord_encode_anyPolicy (.skp x), decodeWord_encode_anyPolicy (.sknp x),
    fun hkey => ⟨⟨_, exec_skp_key hkey, skip_pc_toNat s _, skip_keepsRegs s _, skip_keepsBut_pc s _⟩,
      ⟨_, exec_sknp_key hkey, ?sknp, skip_keepsRegs s _, skip_keepsBut_pc s _⟩⟩,
    fun hnone => ⟨⟨_, if_neg (not_isHexDigit hnone), rfl, setStatus_keepsRegs s _, setStatus_keepsBut_status s _⟩,
      ⟨_, if_neg (not_isHexDigit hnone), rfl, setStatus_keepsRegs s _, setStatus_keepsBut_status s _⟩⟩⟩
  case sknp =>
    rw [skip_pc_toNat, State.keyDown]
    cases s.keys.getLsbD (s.reg x).toNat <;> rfl

end Sys2Proof.Machine
end

section
/-!
PROOFS. 42_register_ops.md: logic, the five flag-setting operations through their one commit, and RND, which alone reads an
input.
-/
namespace Sys2Proof.Machine

/-! ### Logic and RND (R145, R146, R147, R153) -/

/-- Settles O15: each bit of the assigned byte is that operation on the two bits. -/
theorem logicOperationsCombineEveryBit : Obligations.LogicOperationsCombineEveryBit := by
  intro x y s
  refine ⟨decodeWord_encode_anyPolicy (.orReg x y), decodeWord_encode_anyPolicy (.andReg x y),
    decodeWord_encode_anyPolicy (.xorReg x y),
    ⟨_, rfl, fun j => ?or, rfl, assign_keepsRegsBut s x _, assign_keepsBut_pc s x _⟩,
    ⟨_, rfl, fun j => ?and, rfl, assign_keepsRegsBut s x _, assign_keepsBut_pc s x _⟩,
    ⟨_, rfl, fun j => ?xor, rfl, assign_keepsRegsBut s x _, assign_keepsBut_pc s x _⟩⟩
  case or => rw [reg_setReg_same, BitVec.getLsbD_or]
  case and => rw [reg_setReg_same, BitVec.getLsbD_and]
  case xor => rw [reg_setReg_same, BitVec.getLsbD_xor]

/-- Settles O19: the masked draw is assigned as any byte is. -/
theorem rndMasksTheDraw : Obligations.RndMasksTheDraw := by
  intro x nn s
  refine ⟨decodeWord_encode_anyPolicy (.rnd x nn),
    ⟨_, rfl, fun j => ?_, rfl, assign_keepsRegsBut s x _, assign_keepsBut_pc s x _⟩⟩
  rw [reg_setReg_same, BitVec.getLsbD_and]

/-! ### The commit of a result and its flag (R141) -/

theorem commit_keepsBut_pc (s : State) (x : RegIx) (f : Flagged) : KeepsBut [.pc] s (s.advance.commit x f) := fun p hp => by
  cases p
  case pc => exact absurd (List.mem_singleton_self _) hp
  all_goals simp [Piece.Same]

theorem commit_committed (s : State) (x : RegIx) (f : Flagged) :
    Committed x f.result.toNat f.flag.toNat s (s.advance.commit x f) := by
  refine ⟨fun hx => ⟨?result, ?flag⟩, fun hx horder => ?flagLast, fun hx horder => ?resultLast, fun r hr => ?others⟩
  case result => rw [reg_commit, if_neg hx, if_pos rfl]
  case flag => rw [reg_commit, if_pos rfl, if_neg fun h => hx h.1]
  case flagLast => rw [reg_commit, if_pos rfl, State.advance_config, horder, if_neg nofun]
  case resultLast => rw [reg_commit, if_pos rfl, State.advance_config, if_pos ⟨hx, horder⟩]
  case others =>
    obtain ⟨hx, hvf⟩ : r ≠ x ∧ r ≠ vf := by simpa using hr
    rw [reg_commit, if_neg hvf, if_neg hx, State.advance_reg]

/-- A commit holds any result and flag its computation gives as numbers. -/
theorem committed_of_toNat (s : State) (x : RegIx) {f : Flagged} {result flag : Nat} (hresult : f.result.toNat = result)
    (hflag : f.flag.toNat = flag) : Committed x result flag s (s.advance.commit x f) :=
  hresult ▸ hflag ▸ commit_committed s x f

theorem commit_pc_eq (s : State) (x : RegIx) (f : Flagged) : (s.advance.commit x f).pc = s.pc + 2#16 :=
  State.commit_pc s.advance x f

theorem commit_advances (s : State) (x : RegIx) (f : Flagged) : Advances s (s.advance.commit x f) :=
  advances_of_pc_eq (commit_pc_eq s x f)

theorem toNat_flagByte (b : Bool) : (flagByte b).toNat = b.toNat := by
  cases b <;> rfl

theorem toNat_flagByte_decide (p : Prop) [Decidable p] : (flagByte (decide p)).toNat = if p then 1 else 0 := by
  by_cases hp : p <;> simp [hp, flagByte]

/-! ### The five computations (R148 to R152) -/

theorem toNat_addWithCarry_result (a b : Byte) : (addWithCarry a b).result.toNat = (a.toNat + b.toNat) % 256 := by
  rw [addWithCarry, BitVec.toNat_ofNat, Nat.mod_mod]

theorem toNat_subNotBorrow_result (a b : Byte) : (subNotBorrow a b).result.toNat =
    if a.toNat ≥ b.toNat then a.toNat - b.toNat else 256 - (b.toNat - a.toNat) := by
  have ha := a.isLt
  have hb := b.isLt
  rw [subNotBorrow, BitVec.toNat_ofNat]
  split <;> omega

theorem toNat_shiftRightOut_result (a : Byte) : (shiftRightOut a).result.toNat = a.toNat >>> 1 := by
  have ha := a.isLt
  rw [shiftRightOut, BitVec.toNat_ofNat, Nat.shiftRight_one]
  omega

theorem toNat_shiftRightOut_flag (a : Byte) : (shiftRightOut a).flag.toNat = (a.getLsbD 0).toNat := by
  rw [shiftRightOut, toNat_flagByte, BitVec.getLsbD, Nat.testBit_zero]

theorem toNat_shiftLeftOut_result (a : Byte) : (shiftLeftOut a).result.toNat = (a.toNat <<< 1) % 256 := by
  rw [shiftLeftOut, BitVec.toNat_ofNat, Nat.mod_mod, Nat.shiftLeft_eq]

theorem toNat_shiftLeftOut_flag (a : Byte) : (shiftLeftOut a).flag.toNat = (a.getLsbD 7).toNat := by
  have ha := a.isLt
  have hhigh : a.toNat / 2 ^ 7 % 2 = a.toNat / 128 := by omega
  rw [shiftLeftOut, toNat_flagByte, BitVec.getLsbD, Nat.testBit_eq_decide_div_mod_eq, hhigh]

/-- Settles O16: the exact sum, narrowed, and its comparison with 255 are committed. -/
theorem addRegistersSetsTheCarry : Obligations.AddRegistersSetsTheCarry := fun x y s =>
  ⟨decodeWord_encode_anyPolicy (.addReg x y), _, rfl,
    committed_of_toNat s x (toNat_addWithCarry_result _ _) (toNat_flagByte_decide _), commit_advances s x _,
    commit_keepsBut_pc s x _⟩

/-- Settles O17: SUBN is SUB's computation with the operands swapped. -/
theorem subtractionsSetNotBorrow : Obligations.SubtractionsSetNotBorrow := by
  rintro x y s _ _ rfl rfl
  exact ⟨decodeWord_encode_anyPolicy (.sub x y), decodeWord_encode_anyPolicy (.subn x y),
    ⟨_, rfl, committed_of_toNat s x (toNat_subNotBorrow_result _ _) (toNat_flagByte_decide _), commit_advances s x _,
      commit_keepsBut_pc s x _⟩,
    ⟨_, rfl, committed_of_toNat s x (toNat_subNotBorrow_result _ _) (toNat_flagByte_decide _), commit_advances s x _,
      commit_keepsBut_pc s x _⟩⟩

/-- Settles O18: half and double the byte, and the bit that leaves it. -/
theorem shiftsMoveOneBitIntoVf : Obligations.ShiftsMoveOneBitIntoVf := fun x y s =>
  ⟨decodeWord_encode_anyPolicy (.shr x y), decodeWord_encode_anyPolicy (.shl x y),
    ⟨_, rfl, committed_of_toNat s x (toNat_shiftRightOut_result _) (toNat_shiftRightOut_flag _), commit_pc_eq s x _,
      commit_keepsBut_pc s x _⟩,
    ⟨_, rfl, committed_of_toNat s x (toNat_shiftLeftOut_result _) (toNat_shiftLeftOut_flag _), commit_pc_eq s x _,
      commit_keepsBut_pc s x _⟩⟩

/-! ### The state over other inputs (R106) -/

/-- `s` over other coming inputs. -/
def State.withInputs (s : State) (ins : List FrameInput) (n : Nat) : State := { s with inputs := ins, frame := n }

@[simp] theorem State.withInputs_config (s : State) (ins : List FrameInput) (n : Nat) :
    (s.withInputs ins n).config = s.config := rfl

/-- An answer whose next state stands over other coming inputs. -/
def answerWithInputs (ins : List FrameInput) (n : Nat) : Result → Result
  | .next t => .next (t.withInputs ins n)
  | .fault f => .fault f
  | .refused r => .refused r

variable (s : State) (ins : List FrameInput) (n : Nat)

theorem skipIf_withInputs (c : Bool) : (s.withInputs ins n).skipIf c = (s.skipIf c).withInputs ins n := by
  cases c <;> rfl

theorem commit_withInputs (x : RegIx) (f : Flagged) : (s.withInputs ins n).commit x f = (s.commit x f).withInputs ins n := by
  by_cases hx : x ≠ vf
  · simp only [State.commit, if_pos hx]
    rfl
  · simp only [State.commit, if_neg hx, State.withInputs_config]
    cases s.config.vfOrder <;> rfl

theorem setRegsFrom_withInputs (k : Nat) (l : List Byte) :
    (s.withInputs ins n).setRegsFrom k l = (s.setRegsFrom k l).withInputs ins n := by
  induction l generalizing s k with
  | nil => rfl
  | cons b rest ih => exact ih (s.setReg (BitVec.ofNat 4 k) b) (k + 1)

theorem writeBytes_withInputs (a : Nat) (l : List Byte) :
    (s.withInputs ins n).writeBytes a l = (s.writeBytes a l).withInputs ins n := by
  induction l generalizing s a with
  | nil => rfl
  | cons b rest ih => exact ih (s.writeByte a b) (a + 1)

/-- A choice that reads no input: each branch may be taken over the other inputs on its own. -/
theorem ite_eq_answerWithInputs {c : Prop} [Decidable c] {a b a' b' : Result} (ha : a' = answerWithInputs ins n a)
    (hb : b' = answerWithInputs ins n b) : (if c then a' else b') = answerWithInputs ins n (if c then a else b) := by
  rw [ha, hb, apply_ite (answerWithInputs ins n)]

/-- Every instruction but RND does over other inputs what it does over its own. -/
theorem exec_withInputs {i : Instr} (hi : ∀ x nn, i ≠ .rnd x nn) :
    exec i (s.withInputs ins n) = answerWithInputs ins n (exec i s) := by
  cases i
  case rnd x nn => exact absurd rfl (hi x nn)
  case ret =>
    cases hs : s.stack with
    | nil => rw [exec_ret_of_stack_nil hs, exec_ret_of_stack_nil (s := s.withInputs ins n) hs]; rfl
    | cons a rest => rw [exec_ret_of_stack_cons hs, exec_ret_of_stack_cons (s := s.withInputs ins n) hs]; rfl
  case call | ldF => exact ite_eq_answerWithInputs ins n rfl rfl
  case seImm | sneImm | seReg | sneReg => exact congrArg _ (skipIf_withInputs s.advance ins n _)
  case skp | sknp => exact ite_eq_answerWithInputs ins n (congrArg _ (skipIf_withInputs s.advance ins n _)) rfl
  case addReg | sub | shr | subn | shl => exact congrArg _ (commit_withInputs s.advance ins n _ _)
  case drw x y m =>
    simp only [exec, execDrw_eq]
    exact ite_eq_answerWithInputs ins n rfl rfl
  case ldB x =>
    simp only [exec, execLdB_eq]
    exact ite_eq_answerWithInputs ins n
      (congrArg (fun t : State => Host.Outcome.next t.advance) (writeBytes_withInputs s ins n _ _)) rfl
  case ldMemVx x =>
    simp only [exec, execLdMemVx_eq]
    exact ite_eq_answerWithInputs ins n
      (congrArg (fun t : State => Host.Outcome.next (t.advance.setIndex _)) (writeBytes_withInputs s ins n _ _)) rfl
  case ldVxMem x =>
    simp only [exec, execLdVxMem_eq]
    exact ite_eq_answerWithInputs ins n
      (congrArg (fun t : State => Host.Outcome.next (t.setIndex _)) (setRegsFrom_withInputs s.advance ins n 0 _)) rfl
  -- The others are one update each, over operands that are no inputs.
  all_goals rfl

/-- Settles O20: an instruction other than RND commutes with the choice of the coming inputs. -/
theorem onlyRndReadsTheDraw : Obligations.OnlyRndReadsTheDraw := fun _ s _ ins n hi h =>
  (exec_withInputs s ins n hi).trans (congrArg (answerWithInputs ins n) h)

end Sys2Proof.Machine
end

section
/-!
PROOFS. 43_memory_ops.md: the operations on I, the register dump, its load, and the fetch of what it stored.
-/
namespace Sys2Proof.Machine

/-! ### The index register (R171, R172, R173) -/

theorem setIndex_keepsBut_index (s : State) (a : Word) : KeepsBut [.index] s (s.setIndex a) := fun p hp => by
  cases p
  case index => exact absurd (List.mem_singleton_self _) hp
  all_goals simp [Piece.Same]

theorem moveIndex_keepsBut_pc_index (s : State) (a : Word) : KeepsBut [.pc, .index] s (s.advance.setIndex a) :=
  (advance_keepsBut_pc s).trans (setIndex_keepsBut_index s.advance a)

theorem moveIndex_keepsRegs (s : State) (a : Word) : KeepsRegsBut [] s (s.advance.setIndex a) := fun _ _ => rfl

theorem toNat_add_byteOperand (a : Word) (b : Byte) : (a + byteOperand b).toNat = (a.toNat + b.toNat) % 65536 := by
  have hb : (byteOperand b).toNat = b.toNat := BitVec.toNat_setWidth_of_le (by decide)
  rw [BitVec.toNat_add, hb]

/-- Settles O21: both are the advance and one write of I. -/
theorem indexOperationsSetI : Obligations.IndexOperationsSetI := fun nnn x s =>
  ⟨decodeWord_encode_anyPolicy (.ldI nnn), decodeWord_encode_anyPolicy (.addI x),
    ⟨_, rfl, toNat_addrOperand nnn, rfl, moveIndex_keepsRegs s _, moveIndex_keepsBut_pc_index s _⟩,
    ⟨_, rfl, toNat_add_byteOperand s.index (s.reg x), rfl, moveIndex_keepsRegs s _, moveIndex_keepsBut_pc_index s _⟩⟩

theorem exec_ldF_digit {x : RegIx} {s : State} (h : (s.reg x).toNat < 16) :
    exec (.ldF x) s = .next (s.advance.setIndex (glyphAddr (s.reg x))) := if_pos ((isHexDigit_iff _).mpr h)

theorem toNat_glyphAddr (b : Byte) : (glyphAddr b).toNat = b.toNat * 5 := by
  have hb := b.isLt
  rw [glyphAddr, BitVec.toNat_ofNat]
  omega

/-- Settles O22: a digit's glyph is below 0x050, and from 16 on the fault commits nothing. -/
theorem ldFPointsAtTheGlyph : Obligations.LdFPointsAtTheGlyph := fun x s =>
  ⟨decodeWord_encode_anyPolicy (.ldF x),
    fun hdigit => ⟨_, exec_ldF_digit hdigit, toNat_glyphAddr (s.reg x), rfl, moveIndex_keepsRegs s _,
      moveIndex_keepsBut_pc_index s _⟩,
    fun hnone => ⟨_, if_neg (not_isHexDigit hnone), rfl, setStatus_keepsRegs s _, setStatus_keepsBut_status s _⟩⟩

/-! ### The register dump (R176) -/

/-- What an admitted LD [I], VX leaves. -/
def registersDumped (x : RegIx) (s : State) : State :=
  (s.writeBytes s.index.toNat (s.regsUpTo x)).advance.setIndex (s.index + BitVec.ofNat 16 (transferCount x))

variable {x : RegIx} {s t : State}

theorem exec_ldMemVx_inside (h : s.index.toNat + x.toNat ≤ 0xFFF) : exec (.ldMemVx x) s = .next (registersDumped x s) :=
  (execLdMemVx_eq x s).trans (if_pos (Nat.succ_le_succ h))

theorem exec_ldMemVx_beyond (h : 0xFFF < s.index.toNat + x.toNat) :
    exec (.ldMemVx x) s = .next (s.setStatus (.faulted (.memoryFault s.index.toNat (x.toNat + 1)))) :=
  (execLdMemVx_eq x s).trans (if_neg (Nat.not_le_of_lt (Nat.succ_lt_succ h)))

/-- A dump that left the run going stayed inside the memory. -/
theorem ldMemVx_running (h : exec (.ldMemVx x) s = .next t) (ht : t.Running) :
    s.index.toNat + x.toNat ≤ 0xFFF ∧ t = registersDumped x s := by
  by_cases hin : s.index.toNat + x.toNat ≤ 0xFFF
  · exact ⟨hin, Host.Outcome.next.inj (h.symm.trans (exec_ldMemVx_inside hin))⟩
  · obtain rfl := Host.Outcome.next.inj ((exec_ldMemVx_beyond (Nat.lt_of_not_le hin)).symm.trans h)
    exact nomatch ht

theorem readByte_registersDumped {r : RegIx} (hr : r.toNat ≤ x.toNat) :
    (registersDumped x s).readByte (s.index.toNat + r.toNat) = s.reg r := by
  have hin : s.index.toNat ≤ s.index.toNat + r.toNat ∧
      s.index.toNat + r.toNat < s.index.toNat + (s.regsUpTo x).length := by rw [length_regsUpTo]; omega
  rw [registersDumped, State.setIndex_readByte, State.advance_readByte, readByte_writeBytes, if_pos hin,
    Nat.add_sub_cancel_left, getD_regsUpTo s x r hr]

theorem registersDumped_keepsBytesBut (x : RegIx) (s : State) :
    KeepsBytesBut s.index.toNat (x.toNat + 1) s (registersDumped x s) :=
  length_regsUpTo s x ▸ writeBytes_keepsBytesBut s s.index.toNat (s.regsUpTo x)

theorem registersDumped_keepsRegs (x : RegIx) (s : State) : KeepsRegsBut [] s (registersDumped x s) :=
  writeBytes_keepsRegs s s.index.toNat (s.regsUpTo x)

theorem registersDumped_keepsBut (x : RegIx) (s : State) : KeepsBut [.pc, .index, .memory] s (registersDumped x s) :=
  ((store_keepsBut_pc_memory s s.index.toNat (s.regsUpTo x)).trans (setIndex_keepsBut_index _ _)).mono (by simp)

theorem pc_registersDumped (x : RegIx) (s : State) : (registersDumped x s).pc = s.pc + 2#16 := by
  rw [registersDumped, State.setIndex_pc, State.advance_pc, State.writeBytes_pc]

theorem toNat_index_registersDumped (x : RegIx) (s : State) :
    (registersDumped x s).index.toNat = (s.index.toNat + x.toNat + 1) % 65536 := toNat_index_registersLoaded x s

/-- Settles O24: the registers are one run of bytes, each read back where it was written. -/
theorem ldMemVxDumpsTheRegisters : Obligations.LdMemVxDumpsTheRegisters := fun x s =>
  ⟨decodeWord_encode_anyPolicy (.ldMemVx x),
    fun hin => ⟨registersDumped x s, exec_ldMemVx_inside hin, fun _ => readByte_registersDumped,
      toNat_index_registersDumped x s, pc_registersDumped x s, registersDumped_keepsRegs x s,
      registersDumped_keepsBytesBut x s, registersDumped_keepsBut x s⟩,
    fun hout => ⟨_, exec_ldMemVx_beyond hout, rfl, setStatus_keepsRegs s _, setStatus_keepsBut_status s _⟩⟩

/-- Settles O26: the load reads, at each address, the register the dump wrote there. -/
theorem loadingADumpRestoresTheRegisters : Obligations.LoadingADumpRestoresTheRegisters := by
  intro x s t u hin hdump hindex hbytes
  obtain rfl := Host.Outcome.next.inj ((exec_ldMemVx_inside hin).symm.trans hdump)
  have hin' : u.index.toNat + x.toNat ≤ 0xFFF := hindex ▸ hin
  refine ⟨registersLoaded x u, exec_ldVxMem_inside hin', fun r hr => ?restored, ?index, ?advanced⟩
  case restored => rw [reg_registersLoaded, if_pos hr, hindex, hbytes, readByte_registersDumped hr]
  case index => rw [registersLoaded, State.setIndex_index, hindex, registersDumped, State.setIndex_index]
  case advanced =>
    rw [toNat_index_registersDumped]
    omega

/-- Settles O28: the dump leaves V[k] and V[k+1] at the two addresses, and fetch reads them in that order. -/
theorem fetchSeesWhatAnInstructionStored : Obligations.FetchSeesWhatAnInstructionStored := by
  intro x k s t a i _ hdump ht hk ha hadmitted hdecode
  obtain ⟨hin, rfl⟩ := ldMemVx_running hdump ht
  have hx := x.isLt
  have hk1 : (k + 1#4).toNat = k.toNat + 1 := BitVec.toNat_add_of_lt (Nat.lt_of_le_of_lt hk hx)
  have hhi : (registersDumped x s).readByte a.toNat = s.reg k := ha ▸ readByte_registersDumped (Nat.le_of_lt hk)
  have hlo : (registersDumped x s).readByte (a.toNat + 1) = s.reg (k + 1#4) := by
    rw [ha, Nat.add_assoc, ← hk1]
    exact readByte_registersDumped (by omega)
  have hconfig : (registersDumped x s).config = s.config := State.writeBytes_config s _ _
  have himage : (registersDumped x s).imageLen = s.imageLen := State.writeBytes_imageLen s _ _
  have hadmitted' : ((registersDumped x s).setPc a).fetchAdmitted a.toNat = true := by
    rw [State.fetchAdmitted, State.setPc_config, State.setPc_imageLen, hconfig, himage]
    exact hadmitted
  have hfetch := fetchDecode_inside (s := (registersDumped x s).setPc a) hadmitted' (by rw [State.setPc_pc, ha]; omega)
  rw [State.setPc_pc, State.setPc_readByte, State.setPc_readByte, hhi, hlo, State.setPc_config, hconfig] at hfetch
  exact hfetch.trans (decodeFetched_instr (congrArg (·, []) hdecode))

end Sys2Proof.Machine
end

section
/-!
PROOFS. 44_display.md R190, R191: what DRW leaves of the screen and in VF, and that drawing twice restores the screen.
-/
namespace Sys2Proof.Machine

/-- A blit turns off an on-screen pixel exactly when it reports a collision. -/
theorem collision_blit_iff (fb : Framebuffer) (rows : List Byte) (x0 y0 : Nat) :
    (blit fb rows x0 y0).2 = true ↔
      ∃ y x, y < 32 ∧ x < 64 ∧ pixel fb y x = true ∧ pixel (blit fb rows x0 y0).1 y x = false := by
  rw [collision_blit]
  constructor
  · rintro ⟨y, x, hbit, hlit⟩
    obtain ⟨hy, hx⟩ : y < 32 ∧ x < 64 := by
      by_contra hoff
      rw [pixel_off fb hoff] at hlit
      cases hlit
    exact ⟨y, x, hy, hx, hlit, by simp [pixel_blit, hbit, hlit, hy, hx]⟩
  · rintro ⟨y, x, hy, hx, hlit, hunlit⟩
    refine ⟨y, x, ?_, hlit⟩
    simpa [pixel_blit, hlit, hy, hx] using hunlit

/-- The blit of the same rows at the same place undoes itself, each flip being its own inverse. -/
theorem blit_blit (fb : Framebuffer) (rows : List Byte) (x0 y0 : Nat) :
    (blit (blit fb rows x0 y0).1 rows x0 y0).1 = fb :=
  framebuffer_ext fun y x => by rw [pixel_blit, pixel_blit, Bool.xor_assoc, Bool.xor_self, Bool.xor_false]

/-- What an admitted DRW leaves. -/
def spriteDrawn (x y : RegIx) (n : Nibble) (s : State) : State :=
  (s.advance.setScreen (drawn x y n s).1).setReg vf (flagByte (drawn x y n s).2)

variable {x y : RegIx} {n : Nibble} {s t : State}

theorem exec_drw_inside (h : n.toNat = 0 ∨ s.index.toNat + n.toNat ≤ 0x1000) :
    exec (.drw x y n) s = .next (spriteDrawn x y n s) := (execDrw_eq x y n s).trans (if_pos h)

theorem exec_drw_beyond (h : ¬(n.toNat = 0 ∨ s.index.toNat + n.toNat ≤ 0x1000)) :
    exec (.drw x y n) s = .next (s.setStatus (.faulted (.memoryFault s.index.toNat n.toNat))) :=
  (execDrw_eq x y n s).trans (if_neg h)

/-- VF after DRW is 1 where a pixel went from 1 to 0. -/
theorem reg_vf_spriteDrawn_one (h : ∃ yy xx, yy < 32 ∧ xx < 64 ∧ pixel s.fb yy xx = true ∧
    pixel (spriteDrawn x y n s).fb yy xx = false) : (spriteDrawn x y n s).reg vf = 1#8 := by
  have hcollision : (drawn x y n s).2 = true := (collision_blit_iff _ _ _ _).mpr h
  rw [spriteDrawn, reg_setReg_same, hcollision]
  rfl

/-- VF after DRW is 0 where every pixel that was 1 stays 1. -/
theorem reg_vf_spriteDrawn_zero (h : ∀ yy xx, yy < 32 → xx < 64 → pixel s.fb yy xx = true →
    pixel (spriteDrawn x y n s).fb yy xx = true) : (spriteDrawn x y n s).reg vf = 0#8 := by
  have hcollision : (drawn x y n s).2 = false := Bool.eq_false_iff.mpr fun hhit => by
    obtain ⟨yy, xx, hyy, hxx, hlit, hunlit⟩ := (collision_blit_iff _ _ _ _).mp hhit
    exact Bool.false_ne_true (hunlit.symm.trans (h yy xx hyy hxx hlit))
  rw [spriteDrawn, reg_setReg_same, hcollision]
  rfl

theorem pixel_spriteDrawn (x y : RegIx) (n : Nibble) (s : State) {yy xx : Nat} (hyy : yy < 32) (hxx : xx < 64) :
    pixel (spriteDrawn x y n s).fb yy xx =
      (pixel s.fb yy xx ^^ spriteBit (spriteRows s n) ((s.reg x).toNat % 64) ((s.reg y).toNat % 32) yy xx) := by
  rw [spriteDrawn, State.setReg_fb, State.setScreen_fb, drawn, pixel_blit, decide_eq_true hyy, decide_eq_true hxx,
    Bool.and_true, Bool.and_true]

theorem spriteDrawn_keepsRegsBut (x y : RegIx) (n : Nibble) (s : State) : KeepsRegsBut [vf] s (spriteDrawn x y n s) :=
  setReg_keepsRegsBut (s.advance.setScreen (drawn x y n s).1) vf (flagByte (drawn x y n s).2)

theorem spriteDrawn_keepsBut (x y : RegIx) (n : Nibble) (s : State) :
    KeepsBut [.pc, .screen, .dirty] s (spriteDrawn x y n s) :=
  ((advance_keepsBut_pc s).trans (setScreen_keepsBut_screen_dirty s.advance _)).trans (setReg_keepsBut_nothing _ vf _)

/-- Settles O30: the blit flips under the sprite's bits, and its collision is a pixel turned off. -/
theorem drwFlipsThePixelsUnderTheSprite : Obligations.DrwFlipsThePixelsUnderTheSprite := by
  rintro x y n s _ _ _ rfl rfl rfl
  have hzero : n = 0#4 ↔ n.toNat = 0 := BitVec.toNat_inj.symm
  refine ⟨decodeWord_encode_anyPolicy (.drw x y n), fun hin => ?draws, fun hout => ?faults⟩
  case draws =>
    have hin' : n.toNat = 0 ∨ s.index.toNat + n.toNat ≤ 0x1000 := (lastByte_le_iff _ _).mp (hin.imp_left hzero.mp)
    exact ⟨spriteDrawn x y n s, exec_drw_inside hin', fun _ _ => pixel_spriteDrawn x y n s, reg_vf_spriteDrawn_one,
      reg_vf_spriteDrawn_zero, rfl, rfl, spriteDrawn_keepsRegsBut x y n s, spriteDrawn_keepsBut x y n s⟩
  case faults =>
    obtain ⟨hne, hbeyond⟩ := hout
    have hout' : ¬(n.toNat = 0 ∨ s.index.toNat + n.toNat ≤ 0x1000) := by
      rw [← lastByte_le_iff, ← hzero, not_or]
      exact ⟨hne, Nat.not_le_of_lt hbeyond⟩
    exact ⟨_, exec_drw_beyond hout', rfl, setStatus_keepsRegs s _, setStatus_keepsBut_status s _⟩

/-- A draw keeps its own operands where neither coordinate is VF, so the same sprite is drawn at the same place again. -/
theorem drawn_spriteDrawn (hx : x ≠ vf) (hy : y ≠ vf) : drawn x y n (spriteDrawn x y n s) =
    blit (spriteDrawn x y n s).fb (spriteRows s n) ((s.reg x).toNat % 64) ((s.reg y).toNat % 32) := by
  have hxreg : (spriteDrawn x y n s).reg x = s.reg x := spriteDrawn_keepsRegsBut x y n s x (by simpa using hx)
  have hyreg : (spriteDrawn x y n s).reg y = s.reg y := spriteDrawn_keepsRegsBut x y n s y (by simpa using hy)
  rw [drawn, hxreg, hyreg]
  rfl

theorem fb_spriteDrawn_spriteDrawn (hx : x ≠ vf) (hy : y ≠ vf) :
    (spriteDrawn x y n (spriteDrawn x y n s)).fb = s.fb := by
  rw [spriteDrawn, State.setReg_fb, State.setScreen_fb, drawn_spriteDrawn hx hy]
  exact blit_blit s.fb _ _ _

/-- Settles O31: the second draw turns off what the first one lit. -/
theorem drawingTwiceRestoresTheScreen : Obligations.DrawingTwiceRestoresTheScreen := by
  intro x y n s t hx hy _ hdraw ht
  by_cases hin : n.toNat = 0 ∨ s.index.toNat + n.toNat ≤ 0x1000
  · obtain rfl := Host.Outcome.next.inj ((exec_drw_inside hin).symm.trans hdraw)
    have hfb : (spriteDrawn x y n (spriteDrawn x y n s)).fb = s.fb := fb_spriteDrawn_spriteDrawn hx hy
    refine ⟨_, exec_drw_inside hin, hfb, fun ⟨yy, xx, hyy, hxx, hunlit, hlit⟩ => ?_, fun hkept => ?_⟩
    · exact reg_vf_spriteDrawn_one ⟨yy, xx, hyy, hxx, hlit, hfb ▸ hunlit⟩
    · exact reg_vf_spriteDrawn_zero (hfb ▸ hkept)
  · obtain rfl := Host.Outcome.next.inj ((exec_drw_beyond hin).symm.trans hdraw)
    exact nomatch ht

end Sys2Proof.Machine
end

section
/-!
PROOFS. 45_input.md R212 and 46_timers.md: the instructions that write WAIT, DT and ST.
-/
namespace Sys2Proof.Machine

theorem setWait_keepsBut_wait (s : State) (w : KeyWait) : KeepsBut [.wait] s (s.setWait w) := fun p hp => by
  cases p
  case wait => exact absurd (List.mem_singleton_self _) hp
  all_goals simp [Piece.Same]

theorem setDt_keepsBut_delay (s : State) (b : Byte) : KeepsBut [.delay] s (s.setDt b) := fun p hp => by
  cases p
  case delay => exact absurd (List.mem_singleton_self _) hp
  all_goals simp [Piece.Same]

theorem setSt_keepsBut_sound (s : State) (b : Byte) : KeepsBut [.sound] s (s.setSt b) := fun p hp => by
  cases p
  case sound => exact absurd (List.mem_singleton_self _) hp
  all_goals simp [Piece.Same]

/-- Settles O33: LD VX, K is the advance and one write of WAIT. -/
theorem ldVxKInstallsAKeyWait : Obligations.LdVxKInstallsAKeyWait := fun x s =>
  ⟨decodeWord_encode_anyPolicy (.ldVxK x), _, rfl, rfl, rfl, fun _ _ => rfl,
    (advance_keepsBut_pc s).trans (setWait_keepsBut_wait s.advance _)⟩

/-- Settles O34: each is the advance and one write, of a register or of a timer. -/
theorem timerInstructionsMoveTheTimers : Obligations.TimerInstructionsMoveTheTimers := fun x s =>
  ⟨decodeWord_encode_anyPolicy (.ldVxDt x), decodeWord_encode_anyPolicy (.ldDtVx x),
    decodeWord_encode_anyPolicy (.ldStVx x),
    ⟨_, rfl, reg_setReg_same _ x s.dt, rfl, assign_keepsRegsBut s x _, assign_keepsBut_pc s x _⟩,
    ⟨_, rfl, rfl, rfl, fun _ _ => rfl, (advance_keepsBut_pc s).trans (setDt_keepsBut_delay s.advance _)⟩,
    ⟨_, rfl, rfl, rfl, fun _ _ => rfl, (advance_keepsBut_pc s).trans (setSt_keepsBut_sound s.advance _)⟩⟩

end Sys2Proof.Machine
end

section
/-!
PROOFS. 10_state.md R37, R40, 70_reset_and_hazards.md R270: what reset leaves, and what the load port puts over it.
-/
namespace Sys2Proof.Machine

/-- The reset contents: FONT below 0x050, INIT_FILL from there on (log 4). -/
theorem resetByte_font (c : Config) {a : Nat} (h : a < 80) : resetByte c a = c.font[a] := dif_pos h

theorem resetByte_fill (c : Config) {a : Nat} (h : 80 ≤ a) : resetByte c a = c.initFill := dif_neg (Nat.not_lt_of_le h)

theorem readByte_reset (a : Nat) : State.reset.readByte a = resetByte defaultConfig a := rfl

theorem reg_reset (r : RegIx) : State.reset.reg r = 0#8 := by
  simp [State.reg, State.reset]

/-- Settles O58: nothing is listed in the reset memory, so each byte reads as the reset contents. -/
theorem resetLeavesTheStatedValues : Obligations.ResetLeavesTheStatedValues :=
  ⟨rfl, pixel_clearScreen, fun a h => (readByte_reset a).trans (resetByte_font defaultConfig h),
    fun a h => (readByte_reset a).trans (resetByte_fill defaultConfig h), reg_reset, rfl, rfl, rfl, rfl, rfl, rfl, rfl, rfl⟩

/-- The machine an admitted image is loaded into: the reset state with the bytes written, and the launch data. -/
def loaded (c : Config) (image : List Byte) (ins : List FrameInput) : State :=
  { ({ State.reset with config := c }).writeBytes 0x200 image with imageLen := image.length, inputs := ins }

variable {c : Config} {image : List Byte} {ins : List FrameInput} {s : State}

theorem load_fits (h : image.length ≤ 0xE00) : State.load c image ins = some (loaded c image ins) := if_pos h

theorem load_too_long (h : image.length > 0xE00) : State.load c image ins = none := if_neg (Nat.not_le_of_lt h)

theorem load_eq_some (h : State.load c image ins = some s) : image.length ≤ 0xE00 ∧ s = loaded c image ins := by
  by_cases hfits : image.length ≤ 0xE00
  · exact ⟨hfits, Option.some.inj (h.symm.trans (load_fits hfits))⟩
  · exact nomatch h.symm.trans (load_too_long (Nat.lt_of_not_le hfits))

/-- A byte after the load: the image's where the image lies, the reset contents elsewhere. -/
theorem readByte_loaded (c : Config) (image : List Byte) (ins : List FrameInput) (a : Nat) :
    (loaded c image ins).readByte a =
      if 0x200 ≤ a ∧ a < 0x200 + image.length then image.getD (a - 0x200) 0#8 else resetByte c a :=
  readByte_writeBytes { State.reset with config := c } 0x200 a image

theorem stackOk_of_stack_nil (h : s.stack = []) : s.StackOk := fun _ _ => by
  rw [State.sp, h]
  exact Nat.zero_le _

/-- Settles O57: memory is canonical by the load port's own law, the stack is empty and nothing is dirty. -/
theorem resetAndLoadMeetTheInvariants : Obligations.ResetAndLoadMeetTheInvariants := by
  refine ⟨⟨reset_memory_wf, stackOk_of_stack_nil rfl, Nat.zero_le _, rfl⟩, fun c image ins s h => ?_⟩
  obtain ⟨hfits, rfl⟩ := load_eq_some h
  exact ⟨load_memory_wf h, stackOk_of_stack_nil (State.writeBytes_stack _ _ _), hfits, State.writeBytes_dirty _ _ _⟩

/-- Settles O59: the image is one run of written bytes, and every other byte reads as the reset contents. -/
theorem loadPlacesTheImageVerbatim : Obligations.LoadPlacesTheImageVerbatim := by
  intro c image ins
  refine ⟨load_too_long, fun hfits => ⟨_, load_fits hfits, State.writeBytes_pc _ _ _, State.writeBytes_status _ _ _,
    State.writeBytes_config _ _ _, rfl, fun k => getElem?_eq_readByte_writeBytes { State.reset with config := c } 0x200 image,
    fun a ha => ?font, fun a ha hout => ?fill⟩⟩
  case font => rw [readByte_loaded, if_neg (by omega), resetByte_font c ha]
  case fill => rw [readByte_loaded, if_neg (by omega), resetByte_fill c ha]

end Sys2Proof.Machine
end
